-- ==== Sys2Proof/Word.lean ====
section
/-! DEFINITION. The word types of PWMT: a register value is 32 bits (10_state.md R24, R30), the prescaler 16 bits
(R29), a transaction 48 bits (30_encoding.md R70), a byte offset into the register window 12 bits (20_memory.md R50). -/

namespace Sys2Proof

/-- A register value: one 32-bit word, bit 0 least significant (20_memory.md R53). -/
abbrev Word := BitVec 32

/-- A prescaler value, `PSC_WIDTH` = 16 bits (00_scope.md R7). -/
abbrev Half := BitVec 16

/-- A transaction word (30_encoding.md R70). -/
abbrev TxnWord := BitVec 48

/-- A byte offset into the register window (20_memory.md R50). -/
abbrev Offset := BitVec 12

end Sys2Proof
end

