-- ==== Sys2Proof/Config.lean ====
section
/-! DEFINITION. What an implementation fixes (00_scope.md R7) and the free values. The decided parameters are numbers;
the OPEN parameters and the free values are opaque constants, so that no proof can see what they are. -/

namespace Sys2Proof

/-- The level of a pin, `PIN[n]` in {L, H, Z} (00_scope.md R6; 92_eei_decisions.md D29). -/
inductive Level where
  /-- L: driven or pulled low. -/
  | low
  /-- H: driven or pulled high. -/
  | high
  /-- Z: undriven. -/
  | floating
  deriving DecidableEq, Repr, Inhabited

namespace Config

/-- `NPINS`, decided 16 (00_scope.md R7, D25). -/
abbrev npins : Nat := 16

/-- `F_TIM` at the reference setting, in Hz (00_scope.md R7, R9). -/
def fTimReference : Nat := 84000000

/-- `MIN_TICK`, the caller's lower duty bound; PWMT does not read it (00_scope.md R7, 42_timer_registers.md R141). -/
def minTick : Nat := 1000

/-- `MAX_TICK`, the caller's upper duty bound; PWMT does not read it (00_scope.md R7, 42_timer_registers.md R141). -/
def maxTick : Nat := 2000

/-- `F_TIM`, the kernel-clock frequency in Hz, a parameter that is constant for the whole run (00_scope.md R7, R8).
Only laws of time use it; no step reads it (log 4). -/
opaque fTim : ℕ+

/-- `TIM_PIN`, OPEN: the one pin that can carry the timer output, `0 <= TIM_PIN < NPINS` (00_scope.md R7; log 4). -/
opaque timPin : Fin npins

/-- `TIM_AF`, OPEN: the alternate-function number that selects the timer on `TIM_PIN` (00_scope.md R7; log 4). -/
opaque timAf : BitVec 4

/-- The number of the 4096-byte page at which the platform places the window, OPEN (20_memory.md R51; log 4). -/
opaque pwmtPage : Nat

/-- `PWMT_BASE`, OPEN, a multiple of 4096 (00_scope.md R7, 20_memory.md R51). -/
def pwmtBase : Nat := 4096 * pwmtPage

/-- FREE VALUE (log 5): the level drawn from {L, H, Z} for a pin whose alternate function is not the timer's
(41_pin_mux.md R116), indexed by the number of steps taken, the number of the observation made of that state, and the
pin. Nothing constrains it. -/
opaque freePin : Nat → Nat → Nat → Level

/-- FREE VALUE (log 6): `OCREF` in PWM mode while a register it compares is UNWRITTEN, for which
43_counter_compare.md R170 states no value, indexed by the number of steps taken. Nothing constrains it. -/
opaque freeOcref : Nat → Bool

/-- FREE VALUE (log 20): what a name stands for in a program that neither a read has bound nor 00_scope.md R7 lists: a
parameter of the program's own (30_encoding.md R80). Nothing constrains it. -/
opaque freeName : String → Int

/-- FREE VALUE (log 20): the value of `a | b` where an operand is negative, which 30_encoding.md R80 does not state. Nothing
constrains it. -/
opaque freeOr : Int → Int → Int

/-- FREE VALUE (log 20): the value of `a & b` where an operand is negative, which 30_encoding.md R80 does not state. Nothing
constrains it. -/
opaque freeAnd : Int → Int → Int

/-- FREE VALUE (log 20): the value of `a << b` where an operand is negative, which 30_encoding.md R80 does not state.
Nothing constrains it. -/
opaque freeShl : Int → Int → Int

/-- FREE VALUE (log 20): the field `DATA` of a line whose value is not in 0 .. 2^32 - 1, which 30_encoding.md R80 does not
state. Nothing constrains it. -/
opaque freeData : Int → Word

/-- FREE VALUE (log 20): the index of a line PINCFG[n] whose `n` is negative is `NPINS` plus this, an index outside the bank:
30_encoding.md R80 states no word for it. Nothing constrains it. -/
opaque freeIndex : Int → Nat

end Config

end Sys2Proof
end

