-- ==== Sys2Proof/Syntax.lean ====
section
/-! DEFINITION. The transactions of PWMT as data: the registers of 10_state.md R24 and one constructor of `Instr` per row
of spec/opcode_table.json. TICK and reset are steps without an encoding (43_counter_compare.md R160,
70_reset_and_hazards.md R230) and are no constructors here. -/

namespace Sys2Proof

/-- A register of the window (10_state.md R24). -/
inductive Reg where
  | gate
  | timCtrl
  | timChcfg
  | timPsc
  | timArr
  | timCcr
  | timCnt
  | pincfg (n : Nat)
  deriving DecidableEq, Repr

/-- A transaction (30_encoding.md R77): `v` is the write data `DATA`, `n` the pin index. -/
inductive Instr where
  | wrGate (v : Word)
  | rdGate
  | wrTimCtrl (v : Word)
  | rdTimCtrl
  | wrTimChcfg (v : Word)
  | rdTimChcfg
  | wrTimPsc (v : Word)
  | rdTimPsc
  | wrTimArr (v : Word)
  | rdTimArr
  | wrTimCcr (v : Word)
  | rdTimCcr
  | rdTimCnt
  | wrTimCnt (v : Word)
  | wrPincfg (n : Nat) (v : Word)
  | rdPincfg (n : Nat)
  deriving DecidableEq, Repr

/-- The write transaction of a register (30_encoding.md R77, row "WR reg"). -/
def Reg.write : Reg → Word → Instr
  | .gate, v => .wrGate v
  | .timCtrl, v => .wrTimCtrl v
  | .timChcfg, v => .wrTimChcfg v
  | .timPsc, v => .wrTimPsc v
  | .timArr, v => .wrTimArr v
  | .timCcr, v => .wrTimCcr v
  | .timCnt, v => .wrTimCnt v
  | .pincfg n, v => .wrPincfg n v

/-- The read transaction of a register (30_encoding.md R77, row "RD reg"). -/
def Reg.read : Reg → Instr
  | .gate => .rdGate
  | .timCtrl => .rdTimCtrl
  | .timChcfg => .rdTimChcfg
  | .timPsc => .rdTimPsc
  | .timArr => .rdTimArr
  | .timCcr => .rdTimCcr
  | .timCnt => .rdTimCnt
  | .pincfg n => .rdPincfg n

/-- The register a transaction names. -/
def Instr.reg : Instr → Reg
  | .wrGate _ => .gate
  | .rdGate => .gate
  | .wrTimCtrl _ => .timCtrl
  | .rdTimCtrl => .timCtrl
  | .wrTimChcfg _ => .timChcfg
  | .rdTimChcfg => .timChcfg
  | .wrTimPsc _ => .timPsc
  | .rdTimPsc => .timPsc
  | .wrTimArr _ => .timArr
  | .rdTimArr => .timArr
  | .wrTimCcr _ => .timCcr
  | .rdTimCcr => .timCcr
  | .rdTimCnt => .timCnt
  | .wrTimCnt _ => .timCnt
  | .wrPincfg n _ => .pincfg n
  | .rdPincfg n => .pincfg n

/-- The write data of a write, none for a read (30_encoding.md R70, field `RW`). -/
def Instr.writeData : Instr → Option Word
  | .wrGate v => some v
  | .rdGate => none
  | .wrTimCtrl v => some v
  | .rdTimCtrl => none
  | .wrTimChcfg v => some v
  | .rdTimChcfg => none
  | .wrTimPsc v => some v
  | .rdTimPsc => none
  | .wrTimArr v => some v
  | .rdTimArr => none
  | .wrTimCcr v => some v
  | .rdTimCcr => none
  | .rdTimCnt => none
  | .wrTimCnt v => some v
  | .wrPincfg _ v => some v
  | .rdPincfg _ => none

/-- The row's mnemonic in spec/opcode_table.json. -/
def Instr.mnemonic : Instr → String
  | .wrGate _ => "WR_GATE"
  | .rdGate => "RD_GATE"
  | .wrTimCtrl _ => "WR_TIM_CTRL"
  | .rdTimCtrl => "RD_TIM_CTRL"
  | .wrTimChcfg _ => "WR_TIM_CHCFG"
  | .rdTimChcfg => "RD_TIM_CHCFG"
  | .wrTimPsc _ => "WR_TIM_PSC"
  | .rdTimPsc => "RD_TIM_PSC"
  | .wrTimArr _ => "WR_TIM_ARR"
  | .rdTimArr => "RD_TIM_ARR"
  | .wrTimCcr _ => "WR_TIM_CCR"
  | .rdTimCcr => "RD_TIM_CCR"
  | .rdTimCnt => "RD_TIM_CNT"
  | .wrTimCnt _ => "WR_TIM_CNT"
  | .wrPincfg _ _ => "WR_PINCFG_n"
  | .rdPincfg _ => "RD_PINCFG_n"

/-- A register behind the timer's clock gate (40_clock_gate.md R103). -/
def Reg.isTimer : Reg → Bool
  | .gate => false
  | .timCtrl => true
  | .timChcfg => true
  | .timPsc => true
  | .timArr => true
  | .timCcr => true
  | .timCnt => true
  | .pincfg _ => false

end Sys2Proof
end

