-- ==== Sys2Proof/WellFormed.lean ====
section
/-! DEFINITION. Which instructions are well formed: the one check on an operand that the spec makes on the encoding itself
is the pin index, `n < NPINS` (30_encoding.md R71, R77). Every data word is well formed: a reserved bit in it is a fault
of the transaction (F7), not of its form. -/

namespace Sys2Proof

/-- The well-formedness check. -/
def Instr.wellFormed : Instr → Bool
  | .wrGate _ => true
  | .rdGate => true
  | .wrTimCtrl _ => true
  | .rdTimCtrl => true
  | .wrTimChcfg _ => true
  | .rdTimChcfg => true
  | .wrTimPsc _ => true
  | .rdTimPsc => true
  | .wrTimArr _ => true
  | .rdTimArr => true
  | .wrTimCcr _ => true
  | .rdTimCcr => true
  | .rdTimCnt => true
  | .wrTimCnt _ => true
  | .wrPincfg n _ => decide (n < Config.npins)
  | .rdPincfg n => decide (n < Config.npins)

/-- An instruction that some transaction word spells. -/
abbrev Instr.WellFormed (i : Instr) : Prop := i.wellFormed = true

end Sys2Proof
end

