-- ==== Sys2Proof/Decode.lean ====
section
/-! DEFINITION. The transaction word: its fields (30_encoding.md R70, R71), the decoder in the order of R76, the opcode map
of R77 as data, the encoder, and how a bus master's access to a system address becomes a word (00_scope.md R12). -/

namespace Sys2Proof

/-! ### Fields of the word (R70) -/

/-- `RSV`, bit 47. -/
def txnRsv (w : TxnWord) : Bool := w.getLsbD 47

/-- `SIZE`, bits 46:45. -/
def txnSize (w : TxnWord) : BitVec 2 := w.extractLsb' 45 2

/-- `RW`, bit 44: true for a write. -/
def txnRw (w : TxnWord) : Bool := w.getLsbD 44

/-- `OFF`, bits 43:32. -/
def txnOff (w : TxnWord) : Offset := w.extractLsb' 32 12

/-- `DATA`, bits 31:0. -/
def txnData (w : TxnWord) : Word := w.extractLsb' 0 32

/-! ### Decoding (R76) -/

/-- Why a word is no transaction: the decode faults of 60_exceptions.md R201 to R204. -/
inductive Reject where
  /-- F1 ENCODING: `RSV` set, or a read with data. -/
  | encoding
  /-- F2 WIDTH: `SIZE` is not a word. -/
  | width
  /-- F3 ALIGN: the offset is not a multiple of 4. -/
  | align
  /-- F4 UNMAPPED: no register at the offset. -/
  | unmapped
  deriving DecidableEq, Repr

/-- `lookup(off)` of R76: the register at an offset (10_state.md R24). A pin register has `OFF[11:6] = 0b000100` and its
index in `OFF[5:2]` (R71, and the mask 0xFFC3 of R77). -/
def lookup (off : Offset) : Option Reg :=
  if off = 0x000#12 then some .gate
  else if off = 0x010#12 then some .timCtrl
  else if off = 0x014#12 then some .timChcfg
  else if off = 0x018#12 then some .timPsc
  else if off = 0x01C#12 then some .timArr
  else if off = 0x020#12 then some .timCcr
  else if off = 0x024#12 then some .timCnt
  else if off.extractLsb' 6 6 = 0b000100#6 ∧ off.extractLsb' 0 2 = 0#2 ∧ (off.extractLsb' 2 4).toNat < Config.npins then
    some (.pincfg (off.extractLsb' 2 4).toNat)
  else none

/-- The decoder: the first test that applies decides (R76). Total on every 48-bit word. -/
def decode (w : TxnWord) : Except Reject Instr :=
  if txnRsv w = true ∨ (txnRw w = false ∧ txnData w ≠ 0#32) then .error .encoding
  else if txnSize w ≠ 0b10#2 then .error .width
  else if (txnOff w).extractLsb' 0 2 ≠ 0#2 then .error .align
  else
    match lookup (txnOff w) with
    | none => .error .unmapped
    | some r => .ok (if txnRw w then r.write (txnData w) else r.read)

/-! ### Encoding -/

/-- The operand `DATA` in its place, bits 31:0. -/
def dataBits (v : Word) : TxnWord := v.setWidth 48

/-- The operand `n` in its place, bits 37:34, for an index of the bank. DESIGN CHOICE (log 11): an index that does not fit
the field runs on into the offset's upper bits, as `n << 34` does, and one above 63 gives the same offset as 63, so that no
index outside the bank gives the offset of another register. -/
def pinBits (n : Nat) : TxnWord := BitVec.ofNat 48 (min n 63) <<< 34

/-- The word of an instruction, written as each register rule's "Encoding" line gives it. For a pin index outside the bank
the word has an offset that is unmapped (R77: a PINCFG row with `n >= NPINS` faults F4); which unmapped offset is the
model's choice (log 11). -/
def encode : Instr → TxnWord
  | .wrGate v => 0x500000000000#48 ||| dataBits v
  | .rdGate => 0x400000000000#48
  | .wrTimCtrl v => 0x501000000000#48 ||| dataBits v
  | .rdTimCtrl => 0x401000000000#48
  | .wrTimChcfg v => 0x501400000000#48 ||| dataBits v
  | .rdTimChcfg => 0x401400000000#48
  | .wrTimPsc v => 0x501800000000#48 ||| dataBits v
  | .rdTimPsc => 0x401800000000#48
  | .wrTimArr v => 0x501C00000000#48 ||| dataBits v
  | .rdTimArr => 0x401C00000000#48
  | .wrTimCcr v => 0x502000000000#48 ||| dataBits v
  | .rdTimCcr => 0x402000000000#48
  | .rdTimCnt => 0x402400000000#48
  | .wrTimCnt v => 0x502400000000#48 ||| dataBits v
  | .wrPincfg n v => 0x510000000000#48 ||| pinBits n ||| dataBits v
  | .rdPincfg n => 0x410000000000#48 ||| pinBits n

/-! ### The opcode map as data (R77) -/

/-- A row of R77. -/
structure OpcodeRow where
  /-- The mnemonic as spec/opcode_table.json has it. -/
  mnemonic : String
  /-- The column `match`. -/
  pattern : TxnWord
  /-- The column `mask`. -/
  mask : TxnWord
  deriving DecidableEq, Repr

/-- `(w & mask) = match`. -/
def OpcodeRow.matches (r : OpcodeRow) (w : TxnWord) : Bool := w &&& r.mask == r.pattern

/-- The sixteen rows of R77, in its order. -/
def opcodeTable : List OpcodeRow :=
  [ ⟨"WR_GATE", 0x500000000000#48, 0xFFFF00000000#48⟩,
    ⟨"RD_GATE", 0x400000000000#48, 0xFFFFFFFFFFFF#48⟩,
    ⟨"WR_TIM_CTRL", 0x501000000000#48, 0xFFFF00000000#48⟩,
    ⟨"RD_TIM_CTRL", 0x401000000000#48, 0xFFFFFFFFFFFF#48⟩,
    ⟨"WR_TIM_CHCFG", 0x501400000000#48, 0xFFFF00000000#48⟩,
    ⟨"RD_TIM_CHCFG", 0x401400000000#48, 0xFFFFFFFFFFFF#48⟩,
    ⟨"WR_TIM_PSC", 0x501800000000#48, 0xFFFF00000000#48⟩,
    ⟨"RD_TIM_PSC", 0x401800000000#48, 0xFFFFFFFFFFFF#48⟩ ] ++
  [ ⟨"WR_TIM_ARR", 0x501C00000000#48, 0xFFFF00000000#48⟩,
    ⟨"RD_TIM_ARR", 0x401C00000000#48, 0xFFFFFFFFFFFF#48⟩,
    ⟨"WR_TIM_CCR", 0x502000000000#48, 0xFFFF00000000#48⟩,
    ⟨"RD_TIM_CCR", 0x402000000000#48, 0xFFFFFFFFFFFF#48⟩,
    ⟨"RD_TIM_CNT", 0x402400000000#48, 0xFFFFFFFFFFFF#48⟩,
    ⟨"WR_TIM_CNT", 0x502400000000#48, 0xFFFF00000000#48⟩,
    ⟨"WR_PINCFG_n", 0x510000000000#48, 0xFFC300000000#48⟩,
    ⟨"RD_PINCFG_n", 0x410000000000#48, 0xFFC3FFFFFFFF#48⟩ ]

/-! ### The bus master's view (00_scope.md R12, 20_memory.md R50, R51) -/

/-- The word that carries `MemRead(PWMT_BASE + off, 4)`. -/
def memReadTxn (off : Offset) : TxnWord := 0x400000000000#48 ||| (off.setWidth 48 <<< 32)

/-- The word that carries `MemWrite(PWMT_BASE + off, 4, v)`. -/
def memWriteTxn (off : Offset) (v : Word) : TxnWord := 0x500000000000#48 ||| (off.setWidth 48 <<< 32) ||| dataBits v

/-- The offset of a system address in the window `PWMT_BASE .. PWMT_BASE + 0xFFF`, none outside it: what other addresses
do is left to the platform (R51). -/
def windowOffset (addr : Nat) : Option Offset :=
  if Config.pwmtBase ≤ addr ∧ addr < Config.pwmtBase + 4096 then some (BitVec.ofNat 12 (addr - Config.pwmtBase)) else none

/-! ### The host's view of the opcode table -/

/-- The transaction word whose bits are `w`, of which the table gives the lowest `nbits`: bits above are 0. -/
def tableWord (nbits w : Nat) : TxnWord := BitVec.ofNat 48 (w % 2 ^ nbits)

/-- What the decoder reads from a row's word. A transaction is one 48-bit word, so nothing is laid out in bytes. -/
def decodeTableWord (nbits w : Nat) : Option Instr :=
  if nbits ≤ 48 then
    match decode (tableWord nbits w) with
    | .ok i => some i
    | .error _ => none
  else none

end Sys2Proof
end

