-- ==== Sys2Proof/Machine/State.lean ====
section
/-! DEFINITION. The state of PWMT (10_state.md R37, complete), the faults (60_exceptions.md R200), the refusals, the inputs
a step can take, and the state at power-on. State is plain data. -/

namespace Sys2Proof.Machine

/-- The faults F1 to F11 of 60_exceptions.md R200, each with the 48-bit transaction word that raised it (R213): the value
of the record `FAULT`. A faulting step stops the run (R214). All are safe: the model stops where the spec gives no
behaviour, so no claim covers what a real bus would do. -/
inductive Fault where
  /-- F1 ENCODING: raised by decode, `RSV` set or a read with data (R201). Safe. -/
  | encoding (w : TxnWord)
  /-- F2 WIDTH: raised by decode, `SIZE` is not a word (R202). Safe. -/
  | width (w : TxnWord)
  /-- F3 ALIGN: raised by decode, misaligned offset (R203). Safe. -/
  | align (w : TxnWord)
  /-- F4 UNMAPPED: raised by decode and by WR/RD PINCFG, no register there (R204). Safe. -/
  | unmapped (w : TxnWord)
  /-- F5 GATED: raised by every timer and pin transaction whose clock gate is 0 (R205). Safe. -/
  | gated (w : TxnWord)
  /-- F6 READONLY: raised by WR TIM_CNT (R206). Safe. -/
  | readonly (w : TxnWord)
  /-- F7 RESERVED: raised by every write except TIM_ARR, TIM_CCR, TIM_CNT, a reserved bit or encoding (R207). Safe. -/
  | reserved (w : TxnWord)
  /-- F8 LOCKED: raised by WR TIM_PSC, TIM_ARR, TIM_CHCFG while counting (R208). Safe. -/
  | locked (w : TxnWord)
  /-- F9 GATE_CLEAR: raised by WR GATE that would clear a set gate (R209). Safe. -/
  | gateClear (w : TxnWord)
  /-- F10 UNWRITTEN: raised by a read of TIM_PSC, TIM_ARR or TIM_CCR that holds `UNWRITTEN`, "Reading one in that state
  faults with F10" (10_state.md R27), and by WR TIM_CTRL before init (42_timer_registers.md R131); R210. Safe. -/
  | unwritten (w : TxnWord)
  /-- F11 BAD_START: raised by WR TIM_CTRL that starts on a degenerate configuration (R211). Safe. -/
  | badStart (w : TxnWord)
  deriving DecidableEq, Repr

/-- The number in the fault's code, 1 for F1 to 11 for F11 (60_exceptions.md R200). -/
def Fault.code : Fault → Nat
  | .encoding _ => 1
  | .width _ => 2
  | .align _ => 3
  | .unmapped _ => 4
  | .gated _ => 5
  | .readonly _ => 6
  | .reserved _ => 7
  | .locked _ => 8
  | .gateClear _ => 9
  | .unwritten _ => 10
  | .badStart _ => 11

/-- The transaction word the fault records (60_exceptions.md R213). -/
def Fault.word : Fault → TxnWord
  | .encoding w => w
  | .width w => w
  | .align w => w
  | .unmapped w => w
  | .gated w => w
  | .readonly w => w
  | .reserved w => w
  | .locked w => w
  | .gateClear w => w
  | .unwritten w => w
  | .badStart w => w

/-- What the model refuses: inputs the spec places outside the modelled behaviour. -/
inductive Refusal where
  /-- Raised by a still unwritten arm of exec: no arm does. Safe. -/
  | notModelled (mnemonic : String)
  /-- Raised by step on an instruction fetch from the window: "a model must refuse it" (20_memory.md R62). Safe. -/
  | windowFetch (off : Offset)
  /-- Raised by step on a cached access: "outside the modelled behaviour" (20_memory.md R63). Safe. -/
  | cachedAccess (w : TxnWord)
  deriving DecidableEq, Repr

/-- One input to PWMT: a step of the bus master, of the kernel clock or of the reset input (00_scope.md R13,
20_memory.md R57), or one of the two accesses the spec has a model refuse. -/
inductive Input where
  /-- The bus master issues a transaction word (30_encoding.md R70). -/
  | txn (w : TxnWord)
  /-- One cycle of the kernel clock (43_counter_compare.md R160). -/
  | tick
  /-- The reset input (70_reset_and_hazards.md R230). -/
  | reset
  /-- An instruction fetch by the master from the window (20_memory.md R62). -/
  | fetch (off : Offset)
  /-- A cached access by the master (20_memory.md R63). -/
  | cached (w : TxnWord)
  deriving DecidableEq, Repr

/-- `TIM_CHCFG.OCMODE`, its legal values (10_state.md R28): `10` and `11` are reserved and never stored. -/
inductive OcMode where
  /-- `00`: OFF. -/
  | off
  /-- `01`: PWM, non-inverted, active high. -/
  | pwm
  deriving DecidableEq, Repr

/-- `PINCFG[n].MODE`, its legal values (10_state.md R33): `01` and `11` are reserved and never stored. -/
inductive PinMode where
  /-- `00`: input, undriven. -/
  | input
  /-- `10`: alternate function. -/
  | alternate
  deriving DecidableEq, Repr

/-- `PINCFG[n].OTYPE` (10_state.md R33). -/
inductive PinOtype where
  /-- 0. -/
  | pushPull
  /-- 1. -/
  | openDrain
  deriving DecidableEq, Repr

/-- `PINCFG[n].PULL`, its legal values (10_state.md R33): `11` is reserved and never stored. -/
inductive PinPull where
  /-- `00`. -/
  | noPull
  /-- `01`. -/
  | up
  /-- `10`. -/
  | down
  deriving DecidableEq, Repr

/-- `PINCFG[n].SPEED` (10_state.md R33). -/
inductive PinSpeed where
  /-- `00`. -/
  | low
  /-- `01`. -/
  | medium
  /-- `10`. -/
  | high
  /-- `11`. -/
  | veryHigh
  deriving DecidableEq, Repr

/-- The fields of `PINCFG[n]` (10_state.md R33). -/
structure PinCfg where
  mode  : PinMode
  otype : PinOtype
  pull  : PinPull
  speed : PinSpeed
  af    : BitVec 4
  deriving DecidableEq, Repr

/-- `PINCFG[n]` at reset: every field 0 (10_state.md R37). -/
def PinCfg.reset : PinCfg := ⟨.input, .pushPull, .noPull, .low, 0#4⟩

/-- The state of PWMT, every piece of 10_state.md R37, and three fields of the model's own (`inputs`, `readData`,
`steps`). An Option register is one the spec calls "written-or-unwritten" (R27): none is its value `UNWRITTEN`. -/
structure State where
  /-- `GATE.TIMCLKEN` (R25). -/
  timClkEn : Bool
  /-- `GATE.GPIOCLKEN` (R25). -/
  gpioClkEn : Bool
  /-- `TIM_CTRL.CEN` (R26). -/
  cen : Bool
  /-- `TIM_CTRL.CHEN` (R26). -/
  chen : Bool
  /-- `TIM_CHCFG.OCMODE` (R28). -/
  ocMode : OcMode
  /-- `TIM_CHCFG.FASTEN` (R28). -/
  fastEn : Bool
  /-- `PSC`, or UNWRITTEN (R27, R29). -/
  psc : Option Half
  /-- `ARR`, or UNWRITTEN (R27, R30). -/
  arr : Option Word
  /-- `CCR_pre`, or UNWRITTEN (R27, R31). -/
  ccrPre : Option Word
  /-- `CCR_act`, or UNWRITTEN (R31). -/
  ccrAct : Option Word
  /-- `CNT` (R32). -/
  cnt : Word
  /-- `PCNT` (R34). -/
  pcnt : Half
  /-- `PINCFG[n]` for `n < NPINS` (R33). -/
  pins : Vector PinCfg Config.npins
  /-- `FAULT` (R35). -/
  faultRecord : Option Fault
  /-- MODEL'S OWN (log 1): the inputs still to come, in the order in which they take effect (20_memory.md R58). -/
  inputs : List Input
  /-- MODEL'S OWN (log 7): the data the port last returned to the master (00_scope.md R6, R12). -/
  readData : Option Word
  /-- MODEL'S OWN (log 8): how many steps were taken; indexes the free values. -/
  steps : Nat
  deriving DecidableEq, Repr

/-- The state at power-on: 10_state.md R37, `FAULT` = none, and the model's own fields empty (log 1, log 7, log 8). -/
def State.reset : State where
  timClkEn := false
  gpioClkEn := false
  cen := false
  chen := false
  ocMode := .off
  fastEn := false
  psc := none
  arr := none
  ccrPre := none
  ccrAct := none
  cnt := 0#32
  pcnt := 0#16
  pins := Vector.replicate Config.npins PinCfg.reset
  faultRecord := none
  inputs := []
  readData := none
  steps := 0

end Sys2Proof.Machine
end

