-- ==== Sys2Proof/Machine/Ops.lean ====
section
/-! DEFINITION. The named operations over the state: one update per register, the access to a pin's configuration, the
checks that raise a fault, the return of read data, and what a fault leaves behind. PWMT has no memory
(20_memory.md R50) and no trap entry or return (60_exceptions.md R216): raising a fault is the one exceptional outcome. -/

namespace Sys2Proof.Machine

/-- The outcome of an instruction or a step. -/
abbrev Result := Host.Outcome State Fault Refusal

/-! ### Updates, one per register -/

/-- Writes both fields of `GATE` (10_state.md R25). -/
def State.setGate (s : State) (tim gpio : Bool) : State := { s with timClkEn := tim, gpioClkEn := gpio }

/-- Writes both fields of `TIM_CTRL` (10_state.md R26). -/
def State.setCtrl (s : State) (cen chen : Bool) : State := { s with cen := cen, chen := chen }

/-- Writes both fields of `TIM_CHCFG` (10_state.md R28). -/
def State.setChcfg (s : State) (mode : OcMode) (fast : Bool) : State := { s with ocMode := mode, fastEn := fast }

/-- Writes `PSC` (10_state.md R29). -/
def State.setPsc (s : State) (v : Half) : State := { s with psc := some v }

/-- Writes `ARR` (10_state.md R30). -/
def State.setArr (s : State) (v : Word) : State := { s with arr := some v }

/-- Writes `CCR_pre` (10_state.md R31). -/
def State.setCcrPre (s : State) (v : Word) : State := { s with ccrPre := some v }

/-- Writes `CCR_act` (10_state.md R31). -/
def State.setCcrAct (s : State) (v : Word) : State := { s with ccrAct := some v }

/-- `CCR_act <- CCR_pre`, the load of the update event (43_counter_compare.md R164). -/
def State.loadCcr (s : State) : State := { s with ccrAct := s.ccrPre }

/-- Writes `PCNT` (10_state.md R34). -/
def State.setPcnt (s : State) (v : Half) : State := { s with pcnt := v }

/-- Writes `CNT` (10_state.md R32). -/
def State.setCnt (s : State) (v : Word) : State := { s with cnt := v }

/-- Writes `PINCFG[n]`; nothing for an index outside the bank (10_state.md R33). -/
def State.setPin (s : State) (n : Nat) (c : PinCfg) : State := { s with pins := s.pins.setIfInBounds n c }

/-- Hands read data to the bus master (00_scope.md R12; log 7). -/
def State.setReadData (s : State) (v : Word) : State := { s with readData := some v }

/-- Sets the record `FAULT` (60_exceptions.md R213). -/
def State.setFault (s : State) (f : Fault) : State := { s with faultRecord := some f }

/-- Takes one input off the list and counts the step (log 1, log 8). -/
def State.advance (s : State) (rest : List Input) : State := { s with inputs := rest, steps := s.steps + 1 }

/-- Reads `PINCFG[n]`; the reset configuration for an index outside the bank, which no transaction reaches. -/
def State.pin (s : State) (n : Nat) : PinCfg := s.pins[n]?.getD PinCfg.reset

/-- The reset step (70_reset_and_hazards.md R230): every piece of state of 10_state.md R37 to its reset value. `FAULT` is
not touched, and the model's own fields, which are no state of PWMT, stay (log 13). -/
def State.resetStep (s : State) : State :=
  { State.reset with
    faultRecord := s.faultRecord, inputs := s.inputs, readData := s.readData, steps := s.steps }

/-! ### Checks and answers -/

/-- `if not c: raise Fault(f)`, then the rest of the rule. -/
def require (c : Prop) [Decidable c] (f : Fault) (k : Result) : Result := if c then k else .fault f

/-- `raise Fault(f)` when a value is absent, else the rest of the rule with that value. -/
def demand {α : Type} (o : Option α) (f : Fault) (k : α → Result) : Result :=
  match o with
  | some a => k a
  | none => .fault f

/-- A read transaction's end: `r <- v` returned to the master, no state of PWMT changed (20_memory.md R55). -/
def answer (v : Word) (s : State) : Result := .next (s.setReadData v)

/-- The gate check of a timer register (40_clock_gate.md R103), the first check of each timer rule. -/
def requireTimerClock (i : Instr) (s : State) (k : Result) : Result :=
  require (s.timClkEn = true) (.gated (encode i)) k

/-- The checks that begin both pin rules: F4, then the gate check F5 (41_pin_mux.md R110, R111). -/
def requirePin (i : Instr) (n : Nat) (s : State) (k : Result) : Result :=
  require (n < Config.npins) (.unmapped (encode i)) <|
  require (s.gpioClkEn = true) (.gated (encode i)) k

/-- The fault of a word the decoder rejects (30_encoding.md R76). -/
def rejectFault (r : Reject) (w : TxnWord) : Fault :=
  match r with
  | .encoding => .encoding w
  | .width => .width w
  | .align => .align w
  | .unmapped => .unmapped w

/-- The state an outcome leaves the machine in (60_exceptions.md R213): a fault changes nothing but the record `FAULT`,
and a refusal changes nothing. The run is over in both cases (R214). -/
def landing (s : State) (o : Result) : State :=
  match o with
  | .next t => t
  | .fault f => s.setFault f
  | .refused _ => s

end Sys2Proof.Machine
end

