-- ==== Sys2Proof/Machine/Operands.lean ====
section
/-! DEFINITION. The operand forms: how the write value `DATA` is taken apart into a register's fields, refusing reserved
bits and encodings (30_encoding.md R71, 60_exceptions.md R207), and how fields are put together into read data with
reserved bits 0. -/

namespace Sys2Proof.Machine

/-! ### Field encodings (10_state.md R28, R33) -/

/-- `OCMODE` bits to their meaning; none for the reserved `10` and `11`. -/
def OcMode.ofBits (b : BitVec 2) : Option OcMode :=
  if b = 0b00#2 then some .off else if b = 0b01#2 then some .pwm else none

/-- The bits of `OCMODE`. -/
def OcMode.bits : OcMode → BitVec 2
  | .off => 0b00#2
  | .pwm => 0b01#2

/-- `MODE` bits to their meaning; none for the reserved `01` and `11`. -/
def PinMode.ofBits (b : BitVec 2) : Option PinMode :=
  if b = 0b00#2 then some .input else if b = 0b10#2 then some .alternate else none

/-- The bits of `MODE`. -/
def PinMode.bits : PinMode → BitVec 2
  | .input => 0b00#2
  | .alternate => 0b10#2

/-- The `OTYPE` bit to its meaning. -/
def PinOtype.ofBits (b : BitVec 1) : PinOtype := if b = 0#1 then .pushPull else .openDrain

/-- The bit of `OTYPE`. -/
def PinOtype.bits : PinOtype → BitVec 1
  | .pushPull => 0#1
  | .openDrain => 1#1

/-- `PULL` bits to their meaning; none for the reserved `11`. -/
def PinPull.ofBits (b : BitVec 2) : Option PinPull :=
  if b = 0b00#2 then some .noPull else if b = 0b01#2 then some .up else if b = 0b10#2 then some .down else none

/-- The bits of `PULL`. -/
def PinPull.bits : PinPull → BitVec 2
  | .noPull => 0b00#2
  | .up => 0b01#2
  | .down => 0b10#2

/-- `SPEED` bits to their meaning. -/
def PinSpeed.ofBits (b : BitVec 2) : PinSpeed :=
  if b = 0b00#2 then .low else if b = 0b01#2 then .medium else if b = 0b10#2 then .high else .veryHigh

/-- The bits of `SPEED`. -/
def PinSpeed.bits : PinSpeed → BitVec 2
  | .low => 0b00#2
  | .medium => 0b01#2
  | .high => 0b10#2
  | .veryHigh => 0b11#2

/-! ### Write data to fields -/

/-- The two fields of a two-bit register (`GATE`, `TIM_CTRL`): bits 0 and 1; none when a bit of `v[31:2]` is set
(10_state.md R25, R26). -/
def twoFlagsOfData (v : Word) : Option (Bool × Bool) :=
  if v.extractLsb' 2 30 = 0#30 then some (v.getLsbD 0, v.getLsbD 1) else none

/-- `OCMODE` and `FASTEN` of a `TIM_CHCFG` value; none on a reserved bit or encoding (10_state.md R28). -/
def chcfgOfData (v : Word) : Option (OcMode × Bool) :=
  if v.extractLsb' 3 29 = 0#29 then
    match OcMode.ofBits (v.extractLsb' 0 2) with
    | some m => some (m, v.getLsbD 2)
    | none => none
  else none

/-- `PSC` of a `TIM_PSC` value; none when a bit of `v[31:16]` is set (10_state.md R29). -/
def pscOfData (v : Word) : Option Half :=
  if v.extractLsb' 16 16 = 0#16 then some (v.extractLsb' 0 16) else none

/-- The fields of a `PINCFG` value; none on a reserved bit, MODE or PULL (10_state.md R33, 41_pin_mux.md R110). -/
def pinOfData (v : Word) : Option PinCfg :=
  if v.extractLsb' 12 20 = 0#20 ∧ v.getLsbD 7 = false then
    match PinMode.ofBits (v.extractLsb' 0 2), PinPull.ofBits (v.extractLsb' 3 2) with
    | some m, some p =>
      some ⟨m, PinOtype.ofBits (v.extractLsb' 2 1), p, PinSpeed.ofBits (v.extractLsb' 5 2), v.extractLsb' 8 4⟩
    | _, _ => none
  else none

/-! ### Fields to read data: `zext_32` of the fields in their places -/

/-- `zext_32({b, a})`: the read data of `GATE` and `TIM_CTRL` (40_clock_gate.md R102, 42_timer_registers.md R133). -/
def twoFlagsData (a b : Bool) : Word := (BitVec.ofBool b ++ BitVec.ofBool a).setWidth 32

/-- `zext_32({FASTEN, OCMODE})` (42_timer_registers.md R135). -/
def chcfgData (m : OcMode) (fast : Bool) : Word := (BitVec.ofBool fast ++ m.bits).setWidth 32

/-- `zext_32({AF, 0b0, SPEED, PULL, OTYPE, MODE})` (41_pin_mux.md R111). -/
def pinData (c : PinCfg) : Word :=
  (c.af ++ 0#1 ++ c.speed.bits ++ c.pull.bits ++ c.otype.bits ++ c.mode.bits).setWidth 32

end Sys2Proof.Machine
end

