-- ==== Sys2Proof/Machine/Flags.lean ====
section
/-! DEFINITION. PWMT has no stored flags (10_state.md R22). This file holds the conditions the rules compute: whether the
timer counts, the comparisons of a TICK, and the start checks of `WR TIM_CTRL`. All comparisons are unsigned
(43_counter_compare.md R169). -/

namespace Sys2Proof.Machine

/-- The timer counts: `GATE.TIMCLKEN = 1 and CEN = 1` (40_clock_gate.md R104, 43_counter_compare.md R161). -/
def State.counting (s : State) : Bool := s.timClkEn && s.cen

/-- `PCNT = PSC`. An UNWRITTEN `PSC` equals no value (log 9). -/
def State.prescalerDone (s : State) : Bool := decide (s.psc = some s.pcnt)

/-- `CNT = ARR`. An UNWRITTEN `ARR` equals no value (log 9). -/
def State.atTop (s : State) : Bool := decide (s.arr = some s.cnt)

/-- The next counting TICK is an update event: `PCNT = PSC` and `CNT = ARR` before it (43_counter_compare.md R163). -/
def State.updateDue (s : State) : Bool := s.prescalerDone && s.atTop

/-- `starting` of 42_timer_registers.md R130: the write sets `CEN` from 0 to 1. -/
def State.starting (s : State) (cen : Bool) : Bool := !s.cen && cen

/-- `routing` of 42_timer_registers.md R130: the write sets `CHEN` from 0 to 1. -/
def State.routing (s : State) (chen : Bool) : Bool := !s.chen && chen

/-- `PSC`, `ARR` and `CCR_pre` are written: what setting `CEN` needs (42_timer_registers.md R131). -/
def State.counterReady (s : State) : Bool := s.psc.isSome && s.arr.isSome && s.ccrPre.isSome

/-- `ARR` and `CCR_pre` are written: what setting `CHEN` needs (42_timer_registers.md R131). -/
def State.channelReady (s : State) : Bool := s.arr.isSome && s.ccrPre.isSome

/-- `ARR = 0 or CNT > ARR or PCNT > PSC` (42_timer_registers.md R132), of written registers. -/
def State.degenerate (s : State) : Bool :=
  match s.arr, s.psc with
  | some a, some p => decide (a = 0#32) || decide (a < s.cnt) || decide (p < s.pcnt)
  | _, _ => false

/-- A `TIM_CCR` write loads `CCR_act` at once: `CEN = 0 or FASTEN = 1` (42_timer_registers.md R140). -/
def State.loadsAtOnce (s : State) : Bool := !s.cen || s.fastEn

end Sys2Proof.Machine
end

