-- ==== Sys2Proof/Machine/Counter.lean ====
section
/-! DEFINITION. The TICK step of the kernel clock (43_counter_compare.md R160 to R164) and runs of consecutive TICKs. -/

namespace Sys2Proof.Machine

/-- `TICK` (R161, R162). Outside the bounds of R165 the additions wrap, which no run reaches (log 9). -/
def tick (s : State) : State :=
  if s.counting then
    if s.prescalerDone then
      if s.atTop then ((s.setPcnt 0#16).setCnt 0#32).loadCcr
      else (s.setPcnt 0#16).setCnt (s.cnt + 1#32)
    else s.setPcnt (s.pcnt + 1#16)
  else s

/-- `k` consecutive TICKs with no transaction between them. -/
def ticks : Nat → State → State
  | 0, s => s
  | k + 1, s => tick (ticks k s)

/-- TICKs in a frame of `ARR + 1` counter ticks: `(ARR + 1) * (PSC + 1)` (R167), exact arithmetic (R169). -/
def frameTicks (p : Half) (a : Word) : Nat := (a.toNat + 1) * (p.toNat + 1)

/-- `F_TIM / (PSC + 1)`, the counter clock in Hz (R166), for a kernel clock of `f` Hz. -/
def counterClockHz (f : ℕ+) (p : Half) : ℚ := (f : ℚ) / (p.toNat + 1)

/-- A number of TICKs in seconds (R167) at the frequency `F_TIM`. -/
def secondsOf (k : Nat) : ℚ := (k : ℚ) / (Config.fTim : ℚ)

end Sys2Proof.Machine
end

