-- ==== Sys2Proof/Machine/ClockGate.lean ====
section
/-! DEFINITION. The clock-gate transactions (40_clock_gate.md R100 to R102). -/

namespace Sys2Proof.Machine

/-- `WR GATE, v` (R100): F7 on a reserved bit, F9 when it would clear a set gate (R101), else both gates are written. -/
def execWrGate (v : Word) (s : State) : Result :=
  demand (twoFlagsOfData v) (.reserved (encode (.wrGate v))) fun g =>
  require (¬ ((s.timClkEn = true ∧ g.1 = false) ∨ (s.gpioClkEn = true ∧ g.2 = false))) (.gateClear (encode (.wrGate v))) <|
  .next (s.setGate g.1 g.2)

/-- `RD GATE -> r` (R102). -/
def execRdGate (s : State) : Result := answer (twoFlagsData s.timClkEn s.gpioClkEn) s

end Sys2Proof.Machine
end

