-- ==== Sys2Proof/Machine/PinMux.lean ====
section
/-! DEFINITION. The pin multiplexer's transactions (41_pin_mux.md R110, R111). -/

namespace Sys2Proof.Machine

/-- `WR PINCFG[n], v` (R110): F4, F5, F7 in that order, else the five fields are stored. There is no lock (R119). -/
def execWrPincfg (n : Nat) (v : Word) (s : State) : Result :=
  requirePin (.wrPincfg n v) n s <|
  demand (pinOfData v) (.reserved (encode (.wrPincfg n v))) fun c =>
  .next (s.setPin n c)

/-- `RD PINCFG[n] -> r` (R111). -/
def execRdPincfg (n : Nat) (s : State) : Result :=
  requirePin (.rdPincfg n) n s <|
  answer (pinData (s.pin n)) s

end Sys2Proof.Machine
end

