-- ==== Sys2Proof/Machine/TimerRegs.lean ====
section
/-! DEFINITION. The timer register transactions (42_timer_registers.md R130 to R145). Each begins with the gate check of
40_clock_gate.md R103 and raises its faults in the order of 60_exceptions.md R212. -/

namespace Sys2Proof.Machine

/-- `WR TIM_CTRL, v` (R130, R131, R132): F5, F7, F10 on a start or a routing before the registers it needs are written,
F11 on a start in a degenerate configuration, else `CEN` and `CHEN` are written and nothing else. -/
def execWrTimCtrl (v : Word) (s : State) : Result :=
  requireTimerClock (.wrTimCtrl v) s <|
  demand (twoFlagsOfData v) (.reserved (encode (.wrTimCtrl v))) fun g =>
  require (¬ (s.starting g.1 = true ∧ s.counterReady = false)) (.unwritten (encode (.wrTimCtrl v))) <|
  require (¬ (s.routing g.2 = true ∧ s.channelReady = false)) (.unwritten (encode (.wrTimCtrl v))) <|
  require (¬ (s.starting g.1 = true ∧ s.degenerate = true)) (.badStart (encode (.wrTimCtrl v))) <|
  .next (s.setCtrl g.1 g.2)

/-- `RD TIM_CTRL -> r` (R133). -/
def execRdTimCtrl (s : State) : Result :=
  requireTimerClock .rdTimCtrl s <|
  answer (twoFlagsData s.cen s.chen) s

/-- `WR TIM_CHCFG, v` (R134): F5, F7, F8, else `OCMODE` and `FASTEN` are written. -/
def execWrTimChcfg (v : Word) (s : State) : Result :=
  requireTimerClock (.wrTimChcfg v) s <|
  demand (chcfgOfData v) (.reserved (encode (.wrTimChcfg v))) fun g =>
  require (s.cen = false) (.locked (encode (.wrTimChcfg v))) <|
  .next (s.setChcfg g.1 g.2)

/-- `RD TIM_CHCFG -> r` (R135). -/
def execRdTimChcfg (s : State) : Result :=
  requireTimerClock .rdTimChcfg s <|
  answer (chcfgData s.ocMode s.fastEn) s

/-- `WR TIM_PSC, v` (R136): F5, F7, F8, else `PSC` is written; `PCNT` is not changed. -/
def execWrTimPsc (v : Word) (s : State) : Result :=
  requireTimerClock (.wrTimPsc v) s <|
  demand (pscOfData v) (.reserved (encode (.wrTimPsc v))) fun p =>
  require (s.cen = false) (.locked (encode (.wrTimPsc v))) <|
  .next (s.setPsc p)

/-- `RD TIM_PSC -> r` (R137): F5, F10 while UNWRITTEN. -/
def execRdTimPsc (s : State) : Result :=
  requireTimerClock .rdTimPsc s <|
  demand s.psc (.unwritten (encode .rdTimPsc)) fun p =>
  answer (p.setWidth 32) s

/-- `WR TIM_ARR, v` (R138): F5, F8, else `ARR` is written; any value is accepted and `CNT` is not changed. -/
def execWrTimArr (v : Word) (s : State) : Result :=
  requireTimerClock (.wrTimArr v) s <|
  require (s.cen = false) (.locked (encode (.wrTimArr v))) <|
  .next (s.setArr v)

/-- `RD TIM_ARR -> r` (R139): F5, F10 while UNWRITTEN. -/
def execRdTimArr (s : State) : Result :=
  requireTimerClock .rdTimArr s <|
  demand s.arr (.unwritten (encode .rdTimArr)) fun a =>
  answer a s

/-- `WR TIM_CCR, v` (R140, R141): F5 only; `CCR_pre` is written, and `CCR_act` too when `CEN = 0` or `FASTEN = 1`. -/
def execWrTimCcr (v : Word) (s : State) : Result :=
  requireTimerClock (.wrTimCcr v) s <|
  .next (if s.loadsAtOnce then (s.setCcrPre v).setCcrAct v else s.setCcrPre v)

/-- `RD TIM_CCR -> r` (R142): F5, F10 while UNWRITTEN; the value last written, not the one in force. -/
def execRdTimCcr (s : State) : Result :=
  requireTimerClock .rdTimCcr s <|
  demand s.ccrPre (.unwritten (encode .rdTimCcr)) fun c =>
  answer c s

/-- `RD TIM_CNT -> r` (R143). -/
def execRdTimCnt (s : State) : Result :=
  requireTimerClock .rdTimCnt s <|
  answer s.cnt s

/-- `WR TIM_CNT, v` (R144): always faults, F5 while the gate is off, else F6. -/
def execWrTimCnt (v : Word) (s : State) : Result :=
  requireTimerClock (.wrTimCnt v) s <|
  .fault (.readonly (encode (.wrTimCnt v)))

end Sys2Proof.Machine
end

