-- ==== Sys2Proof/Machine/Dispatch.lean ====
section
/-! DEFINITION. One arm per row of spec/opcode_table.json: the meaning of each transaction. -/

namespace Sys2Proof.Machine

def exec (i : Instr) (s : State) : Host.Outcome State Fault Refusal :=
  match i with
  | .wrGate v => Sys2Proof.Machine.execWrGate v s
  | .rdGate => Sys2Proof.Machine.execRdGate s
  | .wrTimCtrl v => Sys2Proof.Machine.execWrTimCtrl v s
  | .rdTimCtrl => Sys2Proof.Machine.execRdTimCtrl s
  | .wrTimChcfg v => Sys2Proof.Machine.execWrTimChcfg v s
  | .rdTimChcfg => Sys2Proof.Machine.execRdTimChcfg s
  | .wrTimPsc v => Sys2Proof.Machine.execWrTimPsc v s
  | .rdTimPsc => Sys2Proof.Machine.execRdTimPsc s
  | .wrTimArr v => Sys2Proof.Machine.execWrTimArr v s
  | .rdTimArr => Sys2Proof.Machine.execRdTimArr s
  | .wrTimCcr v => Sys2Proof.Machine.execWrTimCcr v s
  | .rdTimCcr => Sys2Proof.Machine.execRdTimCcr s
  | .rdTimCnt => Sys2Proof.Machine.execRdTimCnt s
  | .wrTimCnt v => Sys2Proof.Machine.execWrTimCnt v s
  | .wrPincfg n v => Sys2Proof.Machine.execWrPincfg n v s
  | .rdPincfg n => Sys2Proof.Machine.execRdPincfg n s

end Sys2Proof.Machine
end

