-- ==== Sys2Proof/Machine/Signals.lean ====
section
/-! DEFINITION. The derived signals, functions of the state and no state themselves (10_state.md R36): `OCREF` and `TOUT`
(43_counter_compare.md R170, R171) and `PIN[n]` (41_pin_mux.md R112 to R118). -/

namespace Sys2Proof.Machine

/-- `OCREF` (R170). Where a register it needs is UNWRITTEN the spec states no value: a free value (log 6). -/
def ocref (s : State) : Bool :=
  match s.ocMode with
  | .off => false
  | .pwm =>
    match s.ccrAct with
    | none => Config.freeOcref s.steps
    | some c =>
      if s.cnt < c then true
      else
        match s.arr with
        | none => Config.freeOcref s.steps
        | some a => decide (a ≤ c)

/-- `TOUT = if CHEN = 1 then OCREF else 0` (R171). -/
def tout (s : State) : Bool := if s.chen then ocref s else false

/-- `pull(n)`, the pull level of a pin's configuration (R112). -/
def pullLevel (c : PinCfg) : Level :=
  match c.pull with
  | .noPull => .floating
  | .up => .high
  | .down => .low

/-- The level of pin `n` (R118) for a timer binding (`timPin`, `timAf`) and a drawn level for the case of R116. -/
def pinLevelWith (timPin : Nat) (timAf : BitVec 4) (draw : Level) (s : State) (n : Nat) : Level :=
  match (s.pin n).mode with
  | .input => pullLevel (s.pin n)
  | .alternate =>
    if n = timPin ∧ (s.pin n).af = timAf then
      if tout s = false then .low
      else
        match (s.pin n).otype with
        | .pushPull => .high
        | .openDrain => pullLevel (s.pin n)
    else draw

/-- `PIN[n]` at the `k`-th observation made of the state `s`, for `n < NPINS` (R118); each observation of a pin that R116
leaves open draws its own level (log 5). -/
def pinLevel (k : Nat) (s : State) (n : Nat) : Level :=
  pinLevelWith Config.timPin.val Config.timAf (Config.freePin s.steps k n) s n

end Sys2Proof.Machine
end

