-- ==== Sys2Proof/Machine/Step.lean ====
section
/-! DEFINITION. One step of PWMT: a transaction, a TICK or a reset (00_scope.md R13). The next input in the list decides
which agent moves (log 1). -/

namespace Sys2Proof.Machine

/-- One step. With a fault recorded no agent takes a step: the run is over (60_exceptions.md R214). With no input left the
bus master and the reset input are silent and the kernel clock TICKs, which is always enabled (43_counter_compare.md
R160). -/
def step (s : State) : Host.Outcome State Fault Refusal :=
  match s.faultRecord with
  | some f => .fault f
  | none =>
    match s.inputs with
    | [] => .next (tick (s.advance []))
    | .tick :: rest => .next (tick (s.advance rest))
    | .reset :: rest => .next (s.advance rest).resetStep
    | .fetch off :: _ => .refused (.windowFetch off)
    | .cached w :: _ => .refused (.cachedAccess w)
    | .txn w :: rest =>
      match decode w with
      | .error r => .fault (rejectFault r w)
      | .ok i => exec i (s.advance rest)

/-- The state a step leaves: the next state, or the same state with `FAULT` recorded (60_exceptions.md R213). -/
def afterStep (s : State) : State := landing s (step s)

/-- The transaction word of `nbits` bits stands next at the register port, so that the next step runs it: PWMT fetches
nothing, its transactions come from the bus master (10_state.md R21; log 10). -/
def State.withFetchWord (s : State) (nbits w : Nat) : State := { s with inputs := .txn (tableWord nbits w) :: s.inputs }

end Sys2Proof.Machine
end

