-- ==== Sys2Proof/Machine/Program.lean ====
section
/-! DEFINITION. Programs for PWMT (30_encoding.md R80): expressions, lines, the transaction word a line issues, the name a
read binds, and the runs of a program, in which TICKs fall between its lines (20_memory.md R58) and a wait is a lower bound
on them (70_reset_and_hazards.md R252). The bus master that issues the lines is outside PWMT; what its transactions do is
`step`. The characters of the syntax are not modelled (log 20). -/

namespace Sys2Proof.Machine

/-! ### Expressions -/

/-- `<value>`, `<k>` and `<n>` of R80. -/
inductive Expr where
  /-- A decimal or hexadecimal number. -/
  | num (n : Nat)
  /-- A named parameter, or the name a read bound. -/
  | name (x : String)
  /-- `a | b`. -/
  | or (a b : Expr)
  /-- `a & b`. -/
  | and (a b : Expr)
  /-- `a << b`. -/
  | shl (a b : Expr)
  /-- `a + b`. -/
  | add (a b : Expr)
  /-- `a - b`. -/
  | sub (a b : Expr)
  /-- `a * b`. -/
  | mul (a b : Expr)
  deriving DecidableEq, Repr

/-- What each name stands for. -/
abbrev Env := String → Int

/-- The names before any read: the parameters of 00_scope.md R7; every other name is a free value (log 20). -/
def Env.params : Env := fun x =>
  if x = "F_TIM" then ((Config.fTim : Nat) : Int)
  else if x = "PSC_WIDTH" then 16
  else if x = "CNT_WIDTH" then 32
  else if x = "NPINS" then (Config.npins : Int)
  else if x = "TIM_PIN" then (Config.timPin.val : Int)
  else if x = "TIM_AF" then (Config.timAf.toNat : Int)
  else if x = "PWMT_BASE" then (Config.pwmtBase : Int)
  else if x = "MIN_TICK" then (Config.minTick : Int)
  else if x = "MAX_TICK" then (Config.maxTick : Int)
  else Config.freeName x

/-- The environment with a name bound. -/
def Env.bind (e : Env) (x : String) (v : Int) : Env := fun y => if y = x then v else e y

/-- A bit operator: that of the numbers where both operands are numbers from 0 up, a free value else (log 20). -/
def bitOp (f : Nat → Nat → Nat) (free : Int → Int → Int) (a b : Int) : Int :=
  if 0 ≤ a ∧ 0 ≤ b then (f a.toNat b.toNat : Int) else free a b

/-- The value of an expression: exact integer arithmetic (00_scope.md R11; log 20). -/
def Expr.value (e : Env) : Expr → Int
  | .num n => (n : Int)
  | .name x => e x
  | .or a b => bitOp (· ||| ·) Config.freeOr (a.value e) (b.value e)
  | .and a b => bitOp (· &&& ·) Config.freeAnd (a.value e) (b.value e)
  | .shl a b => bitOp (· <<< ·) Config.freeShl (a.value e) (b.value e)
  | .add a b => a.value e + b.value e
  | .sub a b => a.value e - b.value e
  | .mul a b => a.value e * b.value e

/-- `DATA = <value>` (R80): the value as a 32-bit unsigned number (R71), a free value where it is none (log 20). -/
def dataOf (x : Int) : Word := if 0 ≤ x ∧ x < 2 ^ 32 then BitVec.ofNat 32 x.toNat else Config.freeData x

/-- The pin index of `PINCFG[<n>]`: the value; where it is negative, some index outside the bank (log 20). -/
def indexOf (x : Int) : Nat := if 0 ≤ x then x.toNat else Config.npins + Config.freeIndex x

/-! ### Lines -/

/-- `<reg>` of R80. -/
inductive RegName where
  | gate
  | timCtrl
  | timChcfg
  | timPsc
  | timArr
  | timCcr
  | timCnt
  | pincfg (n : Expr)
  deriving DecidableEq, Repr

/-- The register a name of R80 stands for. -/
def RegName.reg (e : Env) : RegName → Reg
  | .gate => .gate
  | .timCtrl => .timCtrl
  | .timChcfg => .timChcfg
  | .timPsc => .timPsc
  | .timArr => .timArr
  | .timCcr => .timCcr
  | .timCnt => .timCnt
  | .pincfg n => .pincfg (indexOf (n.value e))

/-- A line of a program (R80). -/
inductive Line where
  /-- `WR <reg>, <value>`. -/
  | wr (r : RegName) (v : Expr)
  /-- `RD <reg> -> <name>`. -/
  | rd (r : RegName) (x : String)
  /-- `WAIT >= <k>`. -/
  | wait (k : Expr)
  deriving DecidableEq, Repr

/-- The transaction a line issues: one for a `WR` or `RD` line, none for a wait (R80). -/
def Line.instr (e : Env) : Line → Option Instr
  | .wr r v => some ((r.reg e).write (dataOf (v.value e)))
  | .rd r _ => some (r.reg e).read
  | .wait _ => none

/-- The names after a line that left the state `t`: a read binds its name to the value it returned (R80). -/
def Line.bind (t : State) (e : Env) : Line → Env
  | .wr _ _ => e
  | .rd _ x =>
    match t.readData with
    | some d => e.bind x d.toNat
    | none => e
  | .wait _ => e

/-- `Runs e owed ls s o`: from the state `s`, whose inputs are what reaches the port and the clock, the lines `ls` with the
names `e` run to their end and the outcome is `o`, where `owed` TICKs are still to pass before the next line. The lines are
issued in order, any number of TICKs falls before each and at least `k` after a `WAIT >= k`, and a fault ends the run (R80;
20_memory.md R58; 70_reset_and_hazards.md R252; 60_exceptions.md R214). DESIGN CHOICE (log 21): no reset falls among the
lines. 20_memory.md R57 and 70_reset_and_hazards.md R230 let one fall anywhere, but no rule says what the program does after
it; `step` itself takes a reset wherever it falls. -/
inductive Runs : Env → Nat → List Line → State → Result → Prop where
  /-- No line is left and no wait. -/
  | done {e : Env} {s : State} : Runs e 0 [] s (.next s)
  /-- A TICK falls before the next line, or in a wait. -/
  | clock {e : Env} {owed : Nat} {ls : List Line} {s t : State} {rest : List Input} {o : Result}
      (more : 0 < owed ∨ ls ≠ []) (hi : s.inputs = .tick :: rest) (hs : step s = .next t)
      (h : Runs e (owed - 1) ls t o) : Runs e owed ls s o
  /-- A wait begins. -/
  | wait {e : Env} {k : Expr} {ls : List Line} {s : State} {o : Result}
      (h : Runs e (k.value e).toNat ls s o) : Runs e 0 (.wait k :: ls) s o
  /-- A line's transaction completes. -/
  | op {e : Env} {l : Line} {i : Instr} {ls : List Line} {s t : State} {rest : List Input} {o : Result}
      (hl : l.instr e = some i) (hi : s.inputs = .txn (encode i) :: rest) (hs : step s = .next t)
      (h : Runs (l.bind t e) 0 ls t o) : Runs e 0 (l :: ls) s o
  /-- A line's transaction faults, and the run is over. -/
  | fault {e : Env} {l : Line} {i : Instr} {ls : List Line} {s : State} {rest : List Input} {f : Fault}
      (hl : l.instr e = some i) (hi : s.inputs = .txn (encode i) :: rest) (hs : step s = .fault f) :
      Runs e 0 (l :: ls) s (.fault f)

end Sys2Proof.Machine
end

