-- ==== Sys2Proof/Machine/Driver.lean ====
section
/-! DEFINITION. The pseudo-operations of 30_encoding.md R90 to R94: each is the fixed sequence of lines it expands to. The
value of the read in `SETBITS` is the name `t` that its write uses, so it is what the read returns when the lines run. -/

namespace Sys2Proof.Machine

/-- `SETBITS <reg>, <m>` (R91): `RD <reg> -> t`, then `WR <reg>, t | m`; TICKs may fall between (20_memory.md R61). -/
def setBitsLines (r : RegName) (m : Expr) : List Line := [.rd r "t", .wr r (.or (.name "t") m)]

/-- `INIT <psc>, <arr>, <ccr>` (R92). -/
def initLines (psc arr ccr : Expr) : List Line :=
  setBitsLines .gate (.num 0x1) ++ [.wr .timPsc psc, .wr .timArr arr, .wr .timCcr ccr, .wr .timChcfg (.num 0x1)]

/-- `BIND_PWM_PIN <n>, <af>` (R93). -/
def bindPwmPinLines (n af : Expr) : List Line :=
  setBitsLines .gate (.num 0x2) ++ [.wr (.pincfg n) (.or (.shl af (.num 8)) (.num 0b10))]

/-- `START` (R94). -/
def startLines : List Line := [.wr .timCtrl (.num 0x3)]

/-- `SET_DUTY <t>` (R94). -/
def setDutyLines (t : Expr) : List Line := [.wr .timCcr t]

end Sys2Proof.Machine
end

