-- ==== Sys2Proof/Safety.lean ====
section
/-! DEFINITION. The terms in which statements speak of runs: when each fault applies to a transaction, read from
60_exceptions.md R204 to R211 and the register tables of 10_state.md on their own (not from the meanings), the invariant
of 43_counter_compare.md R165, and the invariant that a gated-off block is in its reset state. -/

namespace Sys2Proof.Machine

/-! ### When a fault applies (60_exceptions.md R204 to R211) -/

/-- F7's condition on a write: a reserved bit of the register (10_state.md R25 to R33, as a mask) or a reserved field
encoding (R207). -/
def ReservedWrite : Reg → Word → Prop
  | .gate, v => v &&& 0xFFFFFFFC#32 ≠ 0#32
  | .timCtrl, v => v &&& 0xFFFFFFFC#32 ≠ 0#32
  | .timChcfg, v => v &&& 0xFFFFFFF8#32 ≠ 0#32 ∨ v &&& 0x3#32 = 0x2#32 ∨ v &&& 0x3#32 = 0x3#32
  | .timPsc, v => v &&& 0xFFFF0000#32 ≠ 0#32
  | .timArr, _ => False
  | .timCcr, _ => False
  | .timCnt, _ => False
  | .pincfg _, v =>
    v &&& 0xFFFFF080#32 ≠ 0#32 ∨ v &&& 0x3#32 = 0x1#32 ∨ v &&& 0x3#32 = 0x3#32 ∨ v &&& 0x18#32 = 0x18#32

/-- F4 on a decoded transaction: a pin index outside the bank (R204). -/
def UnmappedApplies (i : Instr) : Prop := ∃ n, i.reg = .pincfg n ∧ Config.npins ≤ n

/-- F5: the clock gate of the transaction's register is 0 (R205). -/
def GatedApplies (i : Instr) (s : State) : Prop :=
  (i.reg.isTimer = true ∧ s.timClkEn = false) ∨ ((∃ n, i.reg = .pincfg n) ∧ s.gpioClkEn = false)

/-- F6: a write of the counter (R206). -/
def ReadonlyApplies (i : Instr) : Prop := ∃ v, i = .wrTimCnt v

/-- F7 (R207). -/
def ReservedApplies (i : Instr) : Prop := ∃ v, i.writeData = some v ∧ ReservedWrite i.reg v

/-- F8: a write to a locked register while `CEN = 1` (R208). -/
def LockedApplies (i : Instr) (s : State) : Prop :=
  i.writeData.isSome = true ∧ (i.reg = .timPsc ∨ i.reg = .timArr ∨ i.reg = .timChcfg) ∧ s.cen = true

/-- F9: a `WR GATE` whose value has 0 where a gate is 1 (R209). -/
def GateClearApplies (i : Instr) (s : State) : Prop :=
  ∃ v, i = .wrGate v ∧ ((s.timClkEn = true ∧ v.getLsbD 0 = false) ∨ (s.gpioClkEn = true ∧ v.getLsbD 1 = false))

/-- F10: a read of an unwritten register, or setting `CEN` or `CHEN` before the registers they need are written (R210,
42_timer_registers.md R131). -/
def UnwrittenApplies (i : Instr) (s : State) : Prop :=
  (i = .rdTimPsc ∧ s.psc = none) ∨ (i = .rdTimArr ∧ s.arr = none) ∨ (i = .rdTimCcr ∧ s.ccrPre = none) ∨
  ∃ v, i = .wrTimCtrl v ∧
    ((s.cen = false ∧ v.getLsbD 0 = true ∧ (s.psc = none ∨ s.arr = none ∨ s.ccrPre = none)) ∨
     (s.chen = false ∧ v.getLsbD 1 = true ∧ (s.arr = none ∨ s.ccrPre = none)))

/-- F11: setting `CEN` with `ARR = 0`, `CNT > ARR` or `PCNT > PSC` (R211, 42_timer_registers.md R132), of written
registers. -/
def BadStartApplies (i : Instr) (s : State) : Prop :=
  ∃ v a p, i = .wrTimCtrl v ∧ s.cen = false ∧ v.getLsbD 0 = true ∧ s.arr = some a ∧ s.psc = some p ∧
    (a.toNat = 0 ∨ a.toNat < s.cnt.toNat ∨ p.toNat < s.pcnt.toNat)

/-- The fault of code `c` applies to the decoded transaction `i` in `s`. The decode faults F1 to F3 never apply to a
decoded transaction. -/
def FaultApplies (c : Nat) (i : Instr) (s : State) : Prop :=
  (c = 4 ∧ UnmappedApplies i) ∨ (c = 5 ∧ GatedApplies i s) ∨ (c = 6 ∧ ReadonlyApplies i) ∨ (c = 7 ∧ ReservedApplies i) ∨
  (c = 8 ∧ LockedApplies i s) ∨ (c = 9 ∧ GateClearApplies i s) ∨ (c = 10 ∧ UnwrittenApplies i s) ∨
  (c = 11 ∧ BadStartApplies i s)

/-! ### Invariants -/

/-- The invariant behind 43_counter_compare.md R165 and 40_clock_gate.md R104. -/
structure State.Inv (s : State) : Prop where
  /-- While `CEN = 1` the timer is clocked, all four registers hold values, and the counters are in their bounds. -/
  counting : s.cen = true → s.timClkEn = true ∧ ∃ p a c d, s.psc = some p ∧ s.arr = some a ∧ s.ccrPre = some c ∧
    s.ccrAct = some d ∧ 1 ≤ a.toNat ∧ s.cnt.toNat ≤ a.toNat ∧ s.pcnt.toNat ≤ p.toNat
  /-- While `CHEN = 1` what the comparator reads holds values (43_counter_compare.md R170). -/
  channel : s.chen = true → s.arr.isSome = true ∧ s.ccrPre.isSome = true
  /-- `CCR_act` holds a value exactly when `CCR_pre` does. -/
  copies : s.ccrAct.isSome = s.ccrPre.isSome

/-- A block whose clock gate is off is in its reset state: no transaction reached it (40_clock_gate.md R101, R103). -/
structure State.GatedBlocksIdle (s : State) : Prop where
  /-- The timer. -/
  timer : s.timClkEn = false → s.cen = false ∧ s.chen = false ∧ s.ocMode = .off ∧ s.fastEn = false ∧ s.psc = none ∧
    s.arr = none ∧ s.ccrPre = none ∧ s.ccrAct = none ∧ s.cnt = 0#32 ∧ s.pcnt = 0#16
  /-- The GPIO bank. -/
  gpio : s.gpioClkEn = false → ∀ n, s.pin n = PinCfg.reset

/-- The timer counts at the start of a frame, with prescaler `p` and period `a`: `CNT = 0, PCNT = 0`
(43_counter_compare.md R167). -/
structure State.AtFrameStart (s : State) (p : Half) (a : Word) : Prop where
  /-- The timer counts. -/
  counting : s.counting = true
  /-- `PSC`. -/
  psc : s.psc = some p
  /-- `ARR`. -/
  arr : s.arr = some a
  /-- `CNT = 0`. -/
  cnt : s.cnt = 0#32
  /-- `PCNT = 0`. -/
  pcnt : s.pcnt = 0#16

end Sys2Proof.Machine
end

