-- ==== Sys2Proof/Certificates/Slice0/Obligations.lean ====
section
/-! DEFINITION. The statements for the provers. Each docstring names the rule of spec/ it formalises; OBLIGATIONS.json holds
the same list with its citations. -/

open Sys2Proof Sys2Proof.Machine

/-! ## Encoding -/

/-- 30_encoding.md R70, R71, R76, R77: the decoder reads back every well-formed instruction from its word, with every
operand at every value; and the word of any other, a pin transaction with an index outside the bank, is unmapped and no
other instruction's (R77; which unmapped offset it has is the model's choice, log 11). -/
def Obligations.DecodeOfEncodeIsInstruction : Prop :=
  (∀ i : Instr, i.WellFormed → decode (encode i) = .ok i) ∧
  (∀ i : Instr, ¬ i.WellFormed → decode (encode i) = .error .unmapped)

/-- 30_encoding.md R77: every decoded word is the word of its instruction, so each word has one meaning and no bit of it
is ignored. -/
def Obligations.EncodeOfDecodedWordIsWord : Prop :=
  ∀ (w : TxnWord) (i : Instr), decode w = .ok i → i.WellFormed ∧ encode i = w

/-- 60_exceptions.md R201 to R204: exactly when each decode fault arises, in the order of 30_encoding.md R76. -/
def Obligations.DecodeRejectsExactlyIllegalWords : Prop :=
  ∀ w : TxnWord,
    let f1 := w.getLsbD 47 = true ∨ (w.getLsbD 44 = false ∧ w.extractLsb' 0 32 ≠ 0#32)
    let f2 := w.extractLsb' 45 2 ≠ 0b10#2
    let f3 := w.extractLsb' 32 2 ≠ 0#2
    let mapped := (w.extractLsb' 32 12).toNat ∈ [0x000, 0x010, 0x014, 0x018, 0x01C, 0x020, 0x024] ∨
      ∃ n, n < Config.npins ∧ (w.extractLsb' 32 12).toNat = 0x100 + 4 * n
    (decode w = .error .encoding ↔ f1) ∧
    (decode w = .error .width ↔ ¬ f1 ∧ f2) ∧
    (decode w = .error .align ↔ ¬ f1 ∧ ¬ f2 ∧ f3) ∧
    (decode w = .error .unmapped ↔ ¬ f1 ∧ ¬ f2 ∧ ¬ f3 ∧ ¬ mapped)

/-- 30_encoding.md R77: the opcode map. A word is a row's transaction exactly when its masked bits are the row's; the rows
do not overlap; a word that matches no row and passes the first three tests faults F4; the fields are `DATA` and `n`. -/
def Obligations.OpcodeMapMatchesDecoder : Prop :=
  (∀ w : TxnWord, ∀ r ∈ opcodeTable, r.matches w = true ↔ ∃ i, decode w = .ok i ∧ i.mnemonic = r.mnemonic) ∧
  opcodeTable.Pairwise (fun a b => ∀ w : TxnWord, ¬ (a.matches w = true ∧ b.matches w = true)) ∧
  (∀ w : TxnWord, (∀ r ∈ opcodeTable, r.matches w = false) →
    ¬ (w.getLsbD 47 = true ∨ (w.getLsbD 44 = false ∧ w.extractLsb' 0 32 ≠ 0#32)) →
    w.extractLsb' 45 2 = 0b10#2 → w.extractLsb' 32 2 = 0#2 → decode w = .error .unmapped) ∧
  (∀ (w : TxnWord) (i : Instr), decode w = .ok i →
    (∀ v, i.writeData = some v → v = w.extractLsb' 0 32) ∧
    (∀ n, i.reg = .pincfg n → n = (w.extractLsb' 34 4).toNat))

/-- Words written out from 95_test_vectors.md §2.1 and the examples of the register rules, one or more for each family. -/
def Obligations.SampleWordsDecodeAsWritten : Prop :=
  decode 0x500000000001#48 = .ok (.wrGate 1#32) ∧
  decode 0x400000000000#48 = .ok .rdGate ∧
  decode 0x501800000053#48 = .ok (.wrTimPsc 83#32) ∧
  decode 0x5020000003E8#48 = .ok (.wrTimCcr 1000#32) ∧
  decode 0x501000000003#48 = .ok (.wrTimCtrl 3#32) ∧
  decode 0x402400000000#48 = .ok .rdTimCnt ∧
  decode 0x511400000102#48 = .ok (.wrPincfg 5 0x102#32) ∧
  decode 0x413C00000000#48 = .ok (.rdPincfg 15) ∧
  decode 0xB01800000053#48 = .error .encoding ∧
  decode 0x301900000053#48 = .error .width ∧
  decode 0x401E00000000#48 = .error .align ∧
  decode 0x514000000000#48 = .error .unmapped

/-- 00_scope.md R12, 20_memory.md R50, R51: a master's read or write of the register at an offset is one word that decodes
to that register's transaction, and the window's addresses are `PWMT_BASE` plus the offset, whatever `PWMT_BASE` is. -/
def Obligations.BusAccessIsOneTransaction : Prop :=
  (∀ (off : Offset) (r : Reg) (v : Word), lookup off = some r →
    decode (memReadTxn off) = .ok r.read ∧ decode (memWriteTxn off v) = .ok (r.write v)) ∧
  (∀ off : Offset, windowOffset (Config.pwmtBase + off.toNat) = some off) ∧
  (∀ addr : Nat, addr < Config.pwmtBase ∨ Config.pwmtBase + 4096 ≤ addr → windowOffset addr = none) ∧
  4096 ∣ Config.pwmtBase

/-! ## Clock gates -/

/-- 40_clock_gate.md R100: `WR GATE`, its encoding, its faults in order and its effect. -/
def Obligations.WriteGateSetsBothGates : Prop :=
  ∀ (v : Word) (s : State),
    encode (.wrGate v) = 0x500000000000#48 ||| v.setWidth 48 ∧
    (v.extractLsb' 2 30 ≠ 0#30 → exec (.wrGate v) s = .fault (.reserved (encode (.wrGate v)))) ∧
    (v.extractLsb' 2 30 = 0#30 →
      (s.timClkEn = true ∧ v.getLsbD 0 = false) ∨ (s.gpioClkEn = true ∧ v.getLsbD 1 = false) →
      exec (.wrGate v) s = .fault (.gateClear (encode (.wrGate v)))) ∧
    (v.extractLsb' 2 30 = 0#30 →
      (s.timClkEn = true → v.getLsbD 0 = true) → (s.gpioClkEn = true → v.getLsbD 1 = true) →
      exec (.wrGate v) s = .next { s with timClkEn := v.getLsbD 0, gpioClkEn := v.getLsbD 1 })

/-- 40_clock_gate.md R102: `RD GATE` always returns the two gates, bits 31:2 zero. -/
def Obligations.ReadGateReturnsGates : Prop :=
  ∀ s : State,
    encode .rdGate = 0x400000000000#48 ∧
    exec .rdGate s =
      .next { s with readData := some ((BitVec.ofBool s.gpioClkEn ++ BitVec.ofBool s.timClkEn).setWidth 32) }

/-- 40_clock_gate.md R101: a write that would clear a set gate faults F9 and changes nothing; no step but a reset clears a
gate; reset clears both. -/
def Obligations.SetGatesStaySetUntilReset : Prop :=
  (∀ (v : Word) (s : State), v.extractLsb' 2 30 = 0#30 →
    (s.timClkEn = true ∧ v.getLsbD 0 = false) ∨ (s.gpioClkEn = true ∧ v.getLsbD 1 = false) →
    landing s (exec (.wrGate v) s) = { s with faultRecord := some (.gateClear (encode (.wrGate v))) }) ∧
  (∀ s t : State, step s = .next t → (∀ rest, s.inputs ≠ .reset :: rest) →
    (s.timClkEn = true → t.timClkEn = true) ∧ (s.gpioClkEn = true → t.gpioClkEn = true)) ∧
  (∀ (s : State) (rest : List Input), s.faultRecord = none → s.inputs = .reset :: rest →
    ∃ t, step s = .next t ∧ t.timClkEn = false ∧ t.gpioClkEn = false)

/-- 60_exceptions.md R205, 40_clock_gate.md R103: every transaction to a timer register with `TIMCLKEN = 0`, and every
one to a pin register with `GPIOCLKEN = 0`, faults F5, whatever its data. -/
def Obligations.GatedAccessFaults : Prop :=
  ∀ (i : Instr) (s : State),
    (i.reg.isTimer = true → s.timClkEn = false → exec i s = .fault (.gated (encode i))) ∧
    (∀ n, i.reg = .pincfg n → n < Config.npins → s.gpioClkEn = false → exec i s = .fault (.gated (encode i)))

/-! ## Pin multiplexer -/

/-- 41_pin_mux.md R110: `WR PINCFG[n]`, its encoding, its faults in order and the five fields it stores. The encoding
is of the pins of the bank, whose index the word's 4-bit field holds (30_encoding.md R71). -/
def Obligations.WritePincfgStoresFields : Prop :=
  ∀ (n : Nat) (v : Word) (s : State),
    (n < Config.npins → encode (.wrPincfg n v) = 0x510000000000#48 ||| (BitVec.ofNat 48 n <<< 34) ||| v.setWidth 48) ∧
    (Config.npins ≤ n → exec (.wrPincfg n v) s = .fault (.unmapped (encode (.wrPincfg n v)))) ∧
    (n < Config.npins → s.gpioClkEn = false → exec (.wrPincfg n v) s = .fault (.gated (encode (.wrPincfg n v)))) ∧
    (n < Config.npins → s.gpioClkEn = true →
      (v.extractLsb' 12 20 ≠ 0#20 ∨ v.getLsbD 7 = true ∨ v.extractLsb' 0 2 = 0b01#2 ∨ v.extractLsb' 0 2 = 0b11#2 ∨
        v.extractLsb' 3 2 = 0b11#2) →
      exec (.wrPincfg n v) s = .fault (.reserved (encode (.wrPincfg n v)))) ∧
    (n < Config.npins → s.gpioClkEn = true → v.extractLsb' 12 20 = 0#20 → v.getLsbD 7 = false →
      (v.extractLsb' 0 2 = 0b00#2 ∨ v.extractLsb' 0 2 = 0b10#2) → v.extractLsb' 3 2 ≠ 0b11#2 →
      ∃ c : PinCfg, exec (.wrPincfg n v) s = .next (s.setPin n c) ∧ (s.setPin n c).pin n = c ∧
        (∀ m, m ≠ n → (s.setPin n c).pin m = s.pin m) ∧
        c.mode.bits = v.extractLsb' 0 2 ∧ c.otype.bits = v.extractLsb' 2 1 ∧ c.pull.bits = v.extractLsb' 3 2 ∧
        c.speed.bits = v.extractLsb' 5 2 ∧ c.af = v.extractLsb' 8 4)

/-- 41_pin_mux.md R111: `RD PINCFG[n]`, its encoding, its faults in order and what it returns. The encoding is of
the pins of the bank, whose index the word's 4-bit field holds (30_encoding.md R71). -/
def Obligations.ReadPincfgReturnsFields : Prop :=
  ∀ (n : Nat) (s : State),
    (n < Config.npins → encode (.rdPincfg n) = 0x410000000000#48 ||| (BitVec.ofNat 48 n <<< 34)) ∧
    (Config.npins ≤ n → exec (.rdPincfg n) s = .fault (.unmapped (encode (.rdPincfg n)))) ∧
    (n < Config.npins → s.gpioClkEn = false → exec (.rdPincfg n) s = .fault (.gated (encode (.rdPincfg n)))) ∧
    (n < Config.npins → s.gpioClkEn = true →
      ∃ r : Word, exec (.rdPincfg n) s = .next { s with readData := some r } ∧
        r.extractLsb' 0 2 = (s.pin n).mode.bits ∧ r.extractLsb' 2 1 = (s.pin n).otype.bits ∧
        r.extractLsb' 3 2 = (s.pin n).pull.bits ∧ r.extractLsb' 5 2 = (s.pin n).speed.bits ∧
        r.getLsbD 7 = false ∧ r.extractLsb' 8 4 = (s.pin n).af ∧ r.extractLsb' 12 20 = 0#20)

/-- 41_pin_mux.md R112 to R115: the pull level, and the level of the pin the timer output reaches, push-pull and
open-drain. -/
def Obligations.TimerPinFollowsOutput : Prop :=
  ∀ (k n : Nat) (s : State),
    let pull := if (s.pin n).pull = .noPull then Level.floating else if (s.pin n).pull = .up then .high else .low
    ((s.pin n).mode = .input → pinLevel k s n = pull) ∧
    ((s.pin n).mode = .alternate → n = Config.timPin.val → (s.pin n).af = Config.timAf →
      (tout s = false → pinLevel k s n = .low) ∧
      (tout s = true → (s.pin n).otype = .pushPull → pinLevel k s n = .high) ∧
      (tout s = true → (s.pin n).otype = .openDrain → pinLevel k s n = pull))

/-- 41_pin_mux.md R116, log 5: a pin on another alternate function, or another pin on any, has the level drawn for this
observation, and the draw is the model's free value `Config.freePin`, so nothing is known of it. -/
def Obligations.OtherFunctionPinIsFree : Prop :=
  ∀ (k n : Nat) (s : State), (s.pin n).mode = .alternate →
    ¬ (n = Config.timPin.val ∧ (s.pin n).af = Config.timAf) → pinLevel k s n = Config.freePin s.steps k n

/-- 41_pin_mux.md R117: SPEED has no effect on any pin's level, whatever pin and alternate function are the timer's and
whatever level is drawn for a pin of R116; it is stored and read back only. -/
def Obligations.SpeedNeverChangesLevel : Prop :=
  ∀ (s : State) (n : Nat) (c : PinCfg) (sp : PinSpeed), n < Config.npins →
    (∀ timPin timAf draw m, pinLevelWith timPin timAf draw (s.setPin n { c with speed := sp }) m =
      pinLevelWith timPin timAf draw (s.setPin n c) m) ∧
    ((s.setPin n { c with speed := sp }).pin n).speed = sp ∧
    (s.gpioClkEn = true → ∃ r : Word,
      exec (.rdPincfg n) (s.setPin n { c with speed := sp }) =
        .next { s.setPin n { c with speed := sp } with readData := some r } ∧
      r.extractLsb' 5 2 = sp.bits)

/-- 41_pin_mux.md R119: a pin configuration write and a timer register transaction give the same state in either order. -/
def Obligations.PinAndTimerSetupCommute : Prop :=
  ∀ (n : Nat) (v : Word) (i : Instr) (s t u : State), i.reg.isTimer = true →
    exec (.wrPincfg n v) s = .next t → exec i t = .next u →
    ∃ t', exec i s = .next t' ∧ exec (.wrPincfg n v) t' = .next u

/-! ## Timer registers -/

/-- 42_timer_registers.md R130, R131, R132: `WR TIM_CTRL`, its encoding, its faults in order and its effect. -/
def Obligations.WriteTimCtrlStartsAndRoutes : Prop :=
  ∀ (v : Word) (s : State),
    let starting := s.cen = false ∧ v.getLsbD 0 = true
    let routing := s.chen = false ∧ v.getLsbD 1 = true
    let early := (starting ∧ (s.psc = none ∨ s.arr = none ∨ s.ccrPre = none)) ∨
      (routing ∧ (s.arr = none ∨ s.ccrPre = none))
    let bad := starting ∧ ∃ a p, s.arr = some a ∧ s.psc = some p ∧
      (a.toNat = 0 ∨ a.toNat < s.cnt.toNat ∨ p.toNat < s.pcnt.toNat)
    encode (.wrTimCtrl v) = 0x501000000000#48 ||| v.setWidth 48 ∧
    (s.timClkEn = false → exec (.wrTimCtrl v) s = .fault (.gated (encode (.wrTimCtrl v)))) ∧
    (s.timClkEn = true → v.extractLsb' 2 30 ≠ 0#30 →
      exec (.wrTimCtrl v) s = .fault (.reserved (encode (.wrTimCtrl v)))) ∧
    (s.timClkEn = true → v.extractLsb' 2 30 = 0#30 → early →
      exec (.wrTimCtrl v) s = .fault (.unwritten (encode (.wrTimCtrl v)))) ∧
    (s.timClkEn = true → v.extractLsb' 2 30 = 0#30 → ¬ early → bad →
      exec (.wrTimCtrl v) s = .fault (.badStart (encode (.wrTimCtrl v)))) ∧
    (s.timClkEn = true → v.extractLsb' 2 30 = 0#30 → ¬ early → ¬ bad →
      exec (.wrTimCtrl v) s = .next { s with cen := v.getLsbD 0, chen := v.getLsbD 1 })

/-- 42_timer_registers.md R133: `RD TIM_CTRL`. -/
def Obligations.ReadTimCtrlReturnsEnables : Prop :=
  ∀ s : State,
    encode .rdTimCtrl = 0x401000000000#48 ∧
    (s.timClkEn = false → exec .rdTimCtrl s = .fault (.gated (encode .rdTimCtrl))) ∧
    (s.timClkEn = true → exec .rdTimCtrl s =
      .next { s with readData := some ((BitVec.ofBool s.chen ++ BitVec.ofBool s.cen).setWidth 32) })

/-- 42_timer_registers.md R134: `WR TIM_CHCFG`, its encoding, its faults in order and its effect. -/
def Obligations.WriteTimChcfgSetsMode : Prop :=
  ∀ (v : Word) (s : State),
    encode (.wrTimChcfg v) = 0x501400000000#48 ||| v.setWidth 48 ∧
    (s.timClkEn = false → exec (.wrTimChcfg v) s = .fault (.gated (encode (.wrTimChcfg v)))) ∧
    (s.timClkEn = true → v.extractLsb' 3 29 ≠ 0#29 ∨ v.getLsbD 1 = true →
      exec (.wrTimChcfg v) s = .fault (.reserved (encode (.wrTimChcfg v)))) ∧
    (s.timClkEn = true → v.extractLsb' 3 29 = 0#29 → v.getLsbD 1 = false → s.cen = true →
      exec (.wrTimChcfg v) s = .fault (.locked (encode (.wrTimChcfg v)))) ∧
    (s.timClkEn = true → v.extractLsb' 3 29 = 0#29 → v.getLsbD 1 = false → s.cen = false →
      ∃ m : OcMode, m.bits = v.extractLsb' 0 2 ∧
        exec (.wrTimChcfg v) s = .next { s with ocMode := m, fastEn := v.getLsbD 2 })

/-- 42_timer_registers.md R135: `RD TIM_CHCFG`. -/
def Obligations.ReadTimChcfgReturnsMode : Prop :=
  ∀ s : State,
    encode .rdTimChcfg = 0x401400000000#48 ∧
    (s.timClkEn = false → exec .rdTimChcfg s = .fault (.gated (encode .rdTimChcfg))) ∧
    (s.timClkEn = true → exec .rdTimChcfg s =
      .next { s with readData := some ((BitVec.ofBool s.fastEn ++ s.ocMode.bits).setWidth 32) })

/-- 42_timer_registers.md R136: `WR TIM_PSC`, its encoding, its faults in order and its effect. -/
def Obligations.WriteTimPscSetsPrescaler : Prop :=
  ∀ (v : Word) (s : State),
    encode (.wrTimPsc v) = 0x501800000000#48 ||| v.setWidth 48 ∧
    (s.timClkEn = false → exec (.wrTimPsc v) s = .fault (.gated (encode (.wrTimPsc v)))) ∧
    (s.timClkEn = true → v.extractLsb' 16 16 ≠ 0#16 →
      exec (.wrTimPsc v) s = .fault (.reserved (encode (.wrTimPsc v)))) ∧
    (s.timClkEn = true → v.extractLsb' 16 16 = 0#16 → s.cen = true →
      exec (.wrTimPsc v) s = .fault (.locked (encode (.wrTimPsc v)))) ∧
    (s.timClkEn = true → v.extractLsb' 16 16 = 0#16 → s.cen = false →
      exec (.wrTimPsc v) s = .next { s with psc := some (v.extractLsb' 0 16) })

/-- 42_timer_registers.md R137: `RD TIM_PSC`. -/
def Obligations.ReadTimPscReturnsPrescaler : Prop :=
  ∀ s : State,
    encode .rdTimPsc = 0x401800000000#48 ∧
    (s.timClkEn = false → exec .rdTimPsc s = .fault (.gated (encode .rdTimPsc))) ∧
    (s.timClkEn = true → s.psc = none → exec .rdTimPsc s = .fault (.unwritten (encode .rdTimPsc))) ∧
    (∀ p : Half, s.timClkEn = true → s.psc = some p →
      exec .rdTimPsc s = .next { s with readData := some (p.setWidth 32) })

/-- 42_timer_registers.md R138: `WR TIM_ARR`, its encoding, its faults in order and its effect. -/
def Obligations.WriteTimArrSetsPeriod : Prop :=
  ∀ (v : Word) (s : State),
    encode (.wrTimArr v) = 0x501C00000000#48 ||| v.setWidth 48 ∧
    (s.timClkEn = false → exec (.wrTimArr v) s = .fault (.gated (encode (.wrTimArr v)))) ∧
    (s.timClkEn = true → s.cen = true → exec (.wrTimArr v) s = .fault (.locked (encode (.wrTimArr v)))) ∧
    (s.timClkEn = true → s.cen = false → exec (.wrTimArr v) s = .next { s with arr := some v })

/-- 42_timer_registers.md R139: `RD TIM_ARR`. -/
def Obligations.ReadTimArrReturnsPeriod : Prop :=
  ∀ s : State,
    encode .rdTimArr = 0x401C00000000#48 ∧
    (s.timClkEn = false → exec .rdTimArr s = .fault (.gated (encode .rdTimArr))) ∧
    (s.timClkEn = true → s.arr = none → exec .rdTimArr s = .fault (.unwritten (encode .rdTimArr))) ∧
    (∀ a : Word, s.timClkEn = true → s.arr = some a → exec .rdTimArr s = .next { s with readData := some a })

/-- 42_timer_registers.md R140, R141: `WR TIM_CCR` accepts every value; it takes effect at once when `CEN = 0` or
`FASTEN = 1`, else only in the preload copy. -/
def Obligations.WriteTimCcrSetsDuty : Prop :=
  ∀ (v : Word) (s : State),
    encode (.wrTimCcr v) = 0x502000000000#48 ||| v.setWidth 48 ∧
    (s.timClkEn = false → exec (.wrTimCcr v) s = .fault (.gated (encode (.wrTimCcr v)))) ∧
    (s.timClkEn = true → s.cen = false ∨ s.fastEn = true →
      exec (.wrTimCcr v) s = .next { s with ccrPre := some v, ccrAct := some v }) ∧
    (s.timClkEn = true → s.cen = true → s.fastEn = false →
      exec (.wrTimCcr v) s = .next { s with ccrPre := some v })

/-- 42_timer_registers.md R142: `RD TIM_CCR` returns the value last written, not the one in force. -/
def Obligations.ReadTimCcrReturnsPreload : Prop :=
  ∀ s : State,
    encode .rdTimCcr = 0x402000000000#48 ∧
    (s.timClkEn = false → exec .rdTimCcr s = .fault (.gated (encode .rdTimCcr))) ∧
    (s.timClkEn = true → s.ccrPre = none → exec .rdTimCcr s = .fault (.unwritten (encode .rdTimCcr))) ∧
    (∀ c : Word, s.timClkEn = true → s.ccrPre = some c → exec .rdTimCcr s = .next { s with readData := some c })

/-- 42_timer_registers.md R143: `RD TIM_CNT` returns the counter at the read's place; while counting that is at most
`ARR`, under the invariant `StepKeepsCountingBounds` states. -/
def Obligations.ReadTimCntReturnsCounter : Prop :=
  ∀ s : State,
    encode .rdTimCnt = 0x402400000000#48 ∧
    (s.timClkEn = false → exec .rdTimCnt s = .fault (.gated (encode .rdTimCnt))) ∧
    (s.timClkEn = true → exec .rdTimCnt s = .next { s with readData := some s.cnt }) ∧
    (s.Inv → s.cen = true → ∃ a : Word, s.arr = some a ∧ s.cnt.toNat ≤ a.toNat)

/-- 42_timer_registers.md R144, 60_exceptions.md R206: `WR TIM_CNT` always stops, F5 while the gate is off, else F6. -/
def Obligations.WriteTimCntAlwaysFaults : Prop :=
  ∀ (v : Word) (s : State),
    encode (.wrTimCnt v) = 0x502400000000#48 ||| v.setWidth 48 ∧
    (s.timClkEn = false → exec (.wrTimCnt v) s = .fault (.gated (encode (.wrTimCnt v)))) ∧
    (s.timClkEn = true → exec (.wrTimCnt v) s = .fault (.readonly (encode (.wrTimCnt v))))

/-- 42_timer_registers.md R145: no transaction changes the prescaler, the period or the channel configuration while
`CEN = 1`. -/
def Obligations.ConfigurationLockedWhileCounting : Prop :=
  ∀ (i : Instr) (s t : State), s.cen = true → exec i s = .next t →
    t.psc = s.psc ∧ t.arr = s.arr ∧ t.ocMode = s.ocMode ∧ t.fastEn = s.fastEn

/-! ## Reads, writes and frames -/

/-- 20_memory.md R55: a read right after an accepted write of a register returns the value written, for every register that
can be written. -/
def Obligations.ReadReturnsLastWrittenValue : Prop :=
  ∀ (i : Instr) (v : Word) (s t : State), i.writeData = some v → exec i s = .next t →
    exec i.reg.read t = .next { t with readData := some v }

/-- 20_memory.md R55: no read changes any state of PWMT; only the data returned to the master differs. -/
def Obligations.ReadsChangeNoState : Prop :=
  ∀ (i : Instr) (s t : State), i.writeData = none → exec i s = .next t →
    ∃ r : Word, t = { s with readData := some r }

/-- 20_memory.md R55: writing the same value twice leaves the same state. -/
def Obligations.WritesAreIdempotent : Prop :=
  ∀ (i : Instr) (v : Word) (s t : State), i.writeData = some v → exec i s = .next t → exec i t = .next t

/-- The frame of every transaction: when it answers a next state, each piece of state is unchanged but that of the register
it writes (for `TIM_CCR` both copies), and but the data returned where it reads. `CNT` and `PCNT` and the record `FAULT`
never change. That a write leaves `readData` unchanged is the model's choice (log 7), and so are the clauses on `inputs`
(log 1) and `steps` (log 8): these three fields are the model's own, not the spec's. -/
def Obligations.TransactionsTouchOnlyTheirRegister : Prop :=
  ∀ (i : Instr) (s t : State), exec i s = .next t →
    (i.reg ≠ .gate ∨ i.writeData = none → t.timClkEn = s.timClkEn ∧ t.gpioClkEn = s.gpioClkEn) ∧
    (i.reg ≠ .timCtrl ∨ i.writeData = none → t.cen = s.cen ∧ t.chen = s.chen) ∧
    (i.reg ≠ .timChcfg ∨ i.writeData = none → t.ocMode = s.ocMode ∧ t.fastEn = s.fastEn) ∧
    (i.reg ≠ .timPsc ∨ i.writeData = none → t.psc = s.psc) ∧
    (i.reg ≠ .timArr ∨ i.writeData = none → t.arr = s.arr) ∧
    (i.reg ≠ .timCcr ∨ i.writeData = none → t.ccrPre = s.ccrPre ∧ t.ccrAct = s.ccrAct) ∧
    (∀ n, i.reg ≠ .pincfg n ∨ i.writeData = none → t.pin n = s.pin n) ∧
    (i.writeData.isSome = true → t.readData = s.readData) ∧
    t.cnt = s.cnt ∧ t.pcnt = s.pcnt ∧ t.faultRecord = s.faultRecord ∧ t.inputs = s.inputs ∧ t.steps = s.steps

/-! ## Counter -/

/-- 43_counter_compare.md R161 to R164: the TICK, counting and not counting, and the update event. -/
def Obligations.TickCountsAndReloads : Prop :=
  ∀ s : State,
    (s.timClkEn = false ∨ s.cen = false → tick s = s) ∧
    (s.timClkEn = true → s.cen = true → s.psc ≠ some s.pcnt → tick s = { s with pcnt := s.pcnt + 1#16 }) ∧
    (s.timClkEn = true → s.cen = true → s.psc = some s.pcnt → s.arr ≠ some s.cnt →
      tick s = { s with pcnt := 0#16, cnt := s.cnt + 1#32 }) ∧
    (s.timClkEn = true → s.cen = true → s.psc = some s.pcnt → s.arr = some s.cnt →
      tick s = { s with pcnt := 0#16, cnt := 0#32, ccrAct := s.ccrPre })

/-- 43_counter_compare.md R169: under the invariant a counting TICK never wraps an addition: each counter goes up by exactly
one or returns to 0. -/
def Obligations.CountingNeverWraps : Prop :=
  ∀ s : State, s.Inv → s.counting = true →
    ((tick s).pcnt.toNat = s.pcnt.toNat + 1 ∧ (tick s).cnt = s.cnt) ∨
    ((tick s).pcnt.toNat = 0 ∧ (tick s).cnt.toNat = s.cnt.toNat + 1) ∨
    ((tick s).pcnt.toNat = 0 ∧ (tick s).cnt.toNat = 0 ∧ s.updateDue = true)

/-- 43_counter_compare.md R166: `CNT` changes once every `PSC + 1` TICKs. From a counter value just begun (`PCNT = 0`) it
holds for `PSC` TICKs and moves at the next, up by one or, from `ARR`, to 0. -/
def Obligations.PrescalerDividesKernelClock : Prop :=
  ∀ (s : State) (p : Half) (a : Word), s.counting = true → s.psc = some p → s.arr = some a → 1 ≤ a.toNat →
    s.cnt.toNat ≤ a.toNat → s.pcnt = 0#16 →
    (∀ k, k ≤ p.toNat → (ticks k s).cnt = s.cnt ∧ (ticks k s).pcnt.toNat = k) ∧
    (ticks (p.toNat + 1) s).cnt.toNat = (if s.cnt = a then 0 else s.cnt.toNat + 1) ∧
    (ticks (p.toNat + 1) s).pcnt = 0#16

/-- 43_counter_compare.md R167: the period law, for every number `k` of TICKs from the start of a frame, and the TICKs that
are update events. -/
def Obligations.CounterFollowsPeriodLaw : Prop :=
  ∀ (s : State) (p : Half) (a : Word), s.AtFrameStart p a → ∀ k : Nat,
    (ticks k s).pcnt.toNat = k % (p.toNat + 1) ∧
    (ticks k s).cnt.toNat = k / (p.toNat + 1) % (a.toNat + 1) ∧
    ((ticks k s).updateDue = true ↔ (k + 1) % ((a.toNat + 1) * (p.toNat + 1)) = 0)

/-- 43_counter_compare.md R164: within a frame the compare value in force is held; from the update event on it is the
preloaded one. -/
def Obligations.CompareLoadsAtFrameEnd : Prop :=
  ∀ (s : State) (p : Half) (a : Word), s.AtFrameStart p a → ∀ k : Nat,
    (ticks k s).ccrPre = s.ccrPre ∧
    (ticks k s).ccrAct = if k < (a.toNat + 1) * (p.toNat + 1) then s.ccrAct else s.ccrPre

/-- 43_counter_compare.md R172: the high-time law. In a frame with the compare value `c` in force, `TOUT` is high exactly
during the first `c` counter values, or throughout when `c` is at or above `ARR`; counted in TICKs. -/
def Obligations.PulseLengthIsDuty : Prop :=
  ∀ (s : State) (p : Half) (a c : Word), s.AtFrameStart p a → 1 ≤ a.toNat → s.ocMode = .pwm → s.chen = true →
    s.ccrAct = some c →
    (∀ k, k < (a.toNat + 1) * (p.toNat + 1) →
      (tout (ticks k s) = true ↔ a.toNat ≤ c.toNat ∨ k / (p.toNat + 1) < c.toNat)) ∧
    ((List.range ((a.toNat + 1) * (p.toNat + 1))).filter (fun k => tout (ticks k s))).length =
      (if a.toNat ≤ c.toNat then a.toNat + 1 else c.toNat) * (p.toNat + 1)

/-- 43_counter_compare.md R170, R171: the comparator and the channel enable, where the registers hold values. -/
def Obligations.OutputIsGatedComparison : Prop :=
  ∀ (s : State) (a c : Word),
    (s.ocMode = .off → ocref s = false) ∧
    (s.ocMode = .pwm → s.arr = some a → s.ccrAct = some c →
      (ocref s = true ↔ s.cnt.toNat < c.toNat ∨ a.toNat ≤ c.toNat)) ∧
    (s.chen = false → tout s = false) ∧
    (s.chen = true → tout s = ocref s)

/-- 43_counter_compare.md R173: with the compare values at or above `ARR` the output is high at every TICK. -/
def Obligations.SaturatedDutyIsConstantHigh : Prop :=
  ∀ (s : State) (a c d : Word), s.counting = true → s.ocMode = .pwm → s.chen = true → s.arr = some a →
    s.ccrAct = some c → s.ccrPre = some d → a.toNat ≤ c.toNat → a.toNat ≤ d.toNat →
    ∀ k : Nat, tout (ticks k s) = true

/-- 43_counter_compare.md R174: with a duty of 0 in force `OCREF` is 0 at every counter value while counting; with 0
preloaded too the output is low at every TICK. -/
def Obligations.ZeroDutyIsConstantLow : Prop :=
  ∀ s : State, s.Inv → s.counting = true → s.ccrAct = some 0#32 →
    ocref s = false ∧ (s.ccrPre = some 0#32 → ∀ k : Nat, ocref (ticks k s) = false ∧ tout (ticks k s) = false)

/-- 43_counter_compare.md R168: clearing `CEN` freezes the counter and both compare copies, for any number of TICKs. -/
def Obligations.StopFreezesCounter : Prop :=
  ∀ (v : Word) (s t : State), v.getLsbD 0 = false → exec (.wrTimCtrl v) s = .next t →
    ∀ k : Nat, (ticks k t).cnt = s.cnt ∧ (ticks k t).pcnt = s.pcnt ∧ (ticks k t).ccrPre = s.ccrPre ∧
      (ticks k t).ccrAct = s.ccrAct ∧ ocref (ticks k t) = ocref s

/-- 43_counter_compare.md R175: a start at `CNT = 0, PCNT = 0` begins the first frame at the step that sets `CEN`, with no
update event: the first is the `(ARR + 1) * (PSC + 1)`-th counting TICK, and until it the compare value written before the
start is in force. -/
def Obligations.StartBeginsFirstFrame : Prop :=
  ∀ (v : Word) (s t : State) (p : Half) (a : Word), s.cen = false → v.getLsbD 0 = true → s.cnt = 0#32 → s.pcnt = 0#16 →
    s.psc = some p → s.arr = some a → exec (.wrTimCtrl v) s = .next t →
    t.ccrAct = s.ccrAct ∧ t.cnt = 0#32 ∧ t.pcnt = 0#16 ∧
    (∀ k, k + 1 < (a.toNat + 1) * (p.toNat + 1) → (ticks k t).updateDue = false ∧ (ticks k t).ccrAct = s.ccrAct) ∧
    (ticks ((a.toNat + 1) * (p.toNat + 1) - 1) t).updateDue = true ∧
    (∀ c, s.ocMode = .pwm → v.getLsbD 1 = true → s.ccrAct = some c → 0 < c.toNat → tout t = true)

/-- 70_reset_and_hazards.md R245: a duty written while counting with `FASTEN = 0` is in force after more than 0 and at most
`(ARR + 1) * (PSC + 1)` TICKs, and until then the old value is. -/
def Obligations.DutyWriteLandsWithinOneFrame : Prop :=
  ∀ (v a : Word) (p : Half) (s t : State), s.Inv → s.counting = true → s.fastEn = false → s.arr = some a →
    s.psc = some p → exec (.wrTimCcr v) s = .next t →
    ∃ j, 0 < j ∧ j ≤ (a.toNat + 1) * (p.toNat + 1) ∧ (ticks j t).ccrAct = some v ∧
      ∀ k, k < j → (ticks k t).ccrAct = s.ccrAct

/-- 70_reset_and_hazards.md R246: of several duty writes in one frame only the last is loaded: with `k` TICKs between two
writes and no update event among them, the state after both is the one that `k` TICKs and the second write alone give. -/
def Obligations.LastDutyWriteInFrameWins : Prop :=
  ∀ (v₁ v₂ : Word) (k : Nat) (s s₁ s₂ : State), s.counting = true → s.fastEn = false →
    (∀ j, j < k → (ticks j s).updateDue = false) →
    exec (.wrTimCcr v₁) s = .next s₁ → exec (.wrTimCcr v₂) (ticks k s₁) = .next s₂ →
    exec (.wrTimCcr v₂) (ticks k s) = .next s₂ ∧ s₂.ccrAct = s.ccrAct ∧
    (s₂.updateDue = true → (tick s₂).ccrAct = some v₂)

/-! ## Steps and faults -/

/-- 30_encoding.md R76, 00_scope.md R13: when the next input is a transaction word that decodes, the step is exec of the
instruction, on the state with that input taken and the step counted (log 1, log 8: the model's own fields). -/
def Obligations.StepRunsDecodedInstruction : Prop :=
  ∀ (s : State) (w : TxnWord) (rest : List Input) (i : Instr), s.faultRecord = none → s.inputs = .txn w :: rest →
    decode w = .ok i → step s = exec i { s with inputs := rest, steps := s.steps + 1 }

/-- 43_counter_compare.md R160, 70_reset_and_hazards.md R230: a TICK never faults and runs `tick`, also when no input is left
(log 1); a reset puts every piece of state of 10_state.md R37 to its reset value, but not `FAULT`, and not the model's own
fields (log 13). -/
def Obligations.StepTicksAndResets : Prop :=
  ∀ (s : State) (rest : List Input), s.faultRecord = none →
    (s.inputs = .tick :: rest → step s = .next (tick { s with inputs := rest, steps := s.steps + 1 })) ∧
    (s.inputs = [] → step s = .next (tick { s with inputs := [], steps := s.steps + 1 })) ∧
    (s.inputs = .reset :: rest → step s =
      .next { State.reset with
        faultRecord := s.faultRecord, inputs := rest, readData := s.readData, steps := s.steps + 1 })

/-- 60_exceptions.md R213: a faulting step changes no register and no hidden state, returns no data, and records the code and
the transaction word. -/
def Obligations.FaultRecordsWordAndChangesNothing : Prop :=
  ∀ (s : State) (w : TxnWord) (rest : List Input) (f : Fault), s.faultRecord = none → s.inputs = .txn w :: rest →
    step s = .fault f → f.word = w ∧ afterStep s = { s with faultRecord := some f }

/-- 60_exceptions.md R214, R215: with a fault recorded no agent takes another step and the record stays; a step that answers a
next state had no fault recorded and records none. -/
def Obligations.FaultedRunIsOver : Prop :=
  (∀ (s : State) (f : Fault), s.faultRecord = some f →
    step s = .fault f ∧ afterStep s = s ∧ ∀ t, step s ≠ .next t) ∧
  (∀ s t : State, step s = .next t → s.faultRecord = none ∧ t.faultRecord = none)

/-- 60_exceptions.md R204 to R212: a decoded transaction either completes, and then no fault applies to it, or it reports the
lowest code that applies, with its word; when each fault applies is said by the rules' own conditions (`FaultApplies`).
Two clauses rest on what the model infers, not on the rules' words: that the word recorded is the encoding of the
instruction (log 11), and that F11 compares written registers only (log 19). -/
def Obligations.LowestApplicableFaultIsReported : Prop :=
  ∀ (i : Instr) (s : State),
    (∃ t, exec i s = .next t ∧ ∀ c, ¬ FaultApplies c i s) ∨
    (∃ f, exec i s = .fault f ∧ f.word = encode i ∧ FaultApplies f.code i s ∧ ∀ c, c < f.code → ¬ FaultApplies c i s)

/-- 60_exceptions.md R201 to R204: a word the decoder rejects stops the step with the fault of that name and the word. -/
def Obligations.RejectedWordStopsStep : Prop :=
  ∀ (s : State) (w : TxnWord) (rest : List Input), s.faultRecord = none → s.inputs = .txn w :: rest →
    (decode w = .error .encoding → step s = .fault (.encoding w)) ∧
    (decode w = .error .width → step s = .fault (.width w)) ∧
    (decode w = .error .align → step s = .fault (.align w)) ∧
    (decode w = .error .unmapped → step s = .fault (.unmapped w))

/-- 20_memory.md R62, R63: a step refuses exactly a fetch from the window and a cached access; no transaction, TICK or reset is
ever refused, and none of this happens once a fault is recorded (60_exceptions.md R214). That R62 says "must refuse it" and
R63 only that a cached access is outside the modelled behaviour: refusing it, by a name of its own, is the model's reading
(log 12). -/
def Obligations.OnlyFetchAndCachedAccessRefused : Prop :=
  ∀ (s : State) (r : Refusal), step s = .refused r ↔
    s.faultRecord = none ∧
    ((∃ off rest, s.inputs = .fetch off :: rest ∧ r = .windowFetch off) ∨
     (∃ w rest, s.inputs = .cached w :: rest ∧ r = .cachedAccess w))

/-! ## Programs -/

/-- 30_encoding.md R91, 40_clock_gate.md R101: `SETBITS GATE, m` sets the gates of `m` and clears none, whatever TICKs fall
between its read and its write; a reserved bit in `m` faults F7; and it does run, from every state with no fault
recorded. That no reset falls between them is the model's choice of what a run of a program is (log 21). -/
def Obligations.SetBitsKeepsOtherGate : Prop :=
  (∀ (e : Env) (m : Nat) (s : State) (o : Result), s.faultRecord = none → Runs e 0 (setBitsLines .gate (.num m)) s o →
    (m < 4 → ∃ t, o = .next t ∧ t.timClkEn = (s.timClkEn || m.testBit 0) ∧ t.gpioClkEn = (s.gpioClkEn || m.testBit 1)) ∧
    (4 ≤ m → m < 2 ^ 32 → ∃ w, o = .fault (.reserved w))) ∧
  (∀ (e : Env) (m : Nat) (s : State) (rest : List Input), m < 4 → s.faultRecord = none →
    ∃ w t, Runs e 0 (setBitsLines .gate (.num m))
      { s with inputs := .txn 0x400000000000#48 :: .txn w :: rest } (.next t))

/-- 70_reset_and_hazards.md R252, 30_encoding.md R80: between the transaction before a `WAIT >= k` and the one after it at
least `k` TICKs pass and nothing else does; and there is no upper bound: with any number of TICKs from `k` up the lines
run. That no reset falls between them is the model's choice of what a run of a program is (log 21). -/
def Obligations.WaitIsLowerBoundOnTicks : Prop :=
  (∀ (e : Env) (l₁ l₂ : Line) (i₁ i₂ : Instr) (k : Expr) (ls : List Line) (s t : State) (more : List Input) (o : Result),
    s.faultRecord = none → l₁.instr e = some i₁ → s.inputs = .txn (encode i₁) :: more → step s = .next t →
    l₂.instr (l₁.bind t e) = some i₂ → Runs e 0 (l₁ :: .wait k :: l₂ :: ls) s o →
    ∃ b rest, (k.value (l₁.bind t e)).toNat ≤ b ∧ more = List.replicate b .tick ++ .txn (encode i₂) :: rest) ∧
  (∀ (e : Env) (k b : Nat) (l : Line) (i : Instr) (s t : State) (rest : List Input), k ≤ b → s.faultRecord = none →
    l.instr e = some i → s.inputs = List.replicate b .tick ++ .txn (encode i) :: rest →
    step { ticks b s with inputs := .txn (encode i) :: rest, steps := s.steps + b } = .next t →
    Runs e 0 [.wait (.num k), l] s (.next t))

/-! ## Reset and invariants -/

/-- 10_state.md R37, 70_reset_and_hazards.md R230: the reset values, after reset `TOUT = 0` and every pin Z, and `FAULT` is
kept across a reset step. That a reset step keeps the model's own fields `inputs`, `readData` and `steps` too is the model's
reading (log 13), not a rule of the spec. -/
def Obligations.ResetLeavesTableValues : Prop :=
  let s := State.reset
  s.timClkEn = false ∧ s.gpioClkEn = false ∧ s.cen = false ∧ s.chen = false ∧ s.ocMode = .off ∧ s.fastEn = false ∧
  s.psc = none ∧ s.arr = none ∧ s.ccrPre = none ∧ s.ccrAct = none ∧ s.cnt = 0#32 ∧ s.pcnt = 0#16 ∧
  s.faultRecord = none ∧
  (∀ n, n < Config.npins → (s.pin n).mode.bits = 0#2 ∧ (s.pin n).otype.bits = 0#1 ∧ (s.pin n).pull.bits = 0#2 ∧
    (s.pin n).speed.bits = 0#2 ∧ (s.pin n).af = 0#4) ∧
  tout s = false ∧ (∀ k n, n < Config.npins → pinLevel k s n = .floating) ∧
  (∀ u : State, u.resetStep =
    { State.reset with faultRecord := u.faultRecord, inputs := u.inputs, readData := u.readData, steps := u.steps })

/-- The invariant behind 43_counter_compare.md R165 and 40_clock_gate.md R104 holds at reset. -/
def Obligations.CountingBoundsHoldAtReset : Prop := State.reset.Inv

/-- 43_counter_compare.md R165, 40_clock_gate.md R104: every step keeps the invariant. -/
def Obligations.StepKeepsCountingBounds : Prop :=
  ∀ s t : State, s.Inv → step s = .next t → t.Inv

/-- A gated-off block is in its reset state: holds at reset (40_clock_gate.md R103). -/
def Obligations.GatedBlocksIdleAtReset : Prop := State.reset.GatedBlocksIdle

/-- 40_clock_gate.md R101, R103, R104: every step keeps a gated-off timer and a gated-off pin bank in their reset state. -/
def Obligations.StepKeepsGatedBlocksIdle : Prop :=
  ∀ s t : State, s.GatedBlocksIdle → step s = .next t → t.GatedBlocksIdle
end

