-- ==== Sys2Proof/Laws/State.lean ====
section
/-! SUPPORT. One lemma per field per update of the state, true by rfl, so that no proof unfolds a record update; and the
laws of the pin bank: a read after a write of the same pin, and of another. -/

namespace Sys2Proof.Machine

/-! ### setGate -/

@[simp] theorem State.setGate_timClkEn (s : State) (tim gpio : Bool) : (s.setGate tim gpio).timClkEn = tim := rfl
@[simp] theorem State.setGate_gpioClkEn (s : State) (tim gpio : Bool) : (s.setGate tim gpio).gpioClkEn = gpio := rfl
@[simp] theorem State.setGate_cen (s : State) (tim gpio : Bool) : (s.setGate tim gpio).cen = s.cen := rfl
@[simp] theorem State.setGate_chen (s : State) (tim gpio : Bool) : (s.setGate tim gpio).chen = s.chen := rfl
@[simp] theorem State.setGate_ocMode (s : State) (tim gpio : Bool) : (s.setGate tim gpio).ocMode = s.ocMode := rfl
@[simp] theorem State.setGate_fastEn (s : State) (tim gpio : Bool) : (s.setGate tim gpio).fastEn = s.fastEn := rfl
@[simp] theorem State.setGate_psc (s : State) (tim gpio : Bool) : (s.setGate tim gpio).psc = s.psc := rfl
@[simp] theorem State.setGate_arr (s : State) (tim gpio : Bool) : (s.setGate tim gpio).arr = s.arr := rfl
@[simp] theorem State.setGate_ccrPre (s : State) (tim gpio : Bool) : (s.setGate tim gpio).ccrPre = s.ccrPre := rfl
@[simp] theorem State.setGate_ccrAct (s : State) (tim gpio : Bool) : (s.setGate tim gpio).ccrAct = s.ccrAct := rfl
@[simp] theorem State.setGate_cnt (s : State) (tim gpio : Bool) : (s.setGate tim gpio).cnt = s.cnt := rfl
@[simp] theorem State.setGate_pcnt (s : State) (tim gpio : Bool) : (s.setGate tim gpio).pcnt = s.pcnt := rfl
@[simp] theorem State.setGate_pins (s : State) (tim gpio : Bool) : (s.setGate tim gpio).pins = s.pins := rfl
@[simp] theorem State.setGate_faultRecord (s : State) (tim gpio : Bool) : (s.setGate tim gpio).faultRecord = s.faultRecord := rfl
@[simp] theorem State.setGate_inputs (s : State) (tim gpio : Bool) : (s.setGate tim gpio).inputs = s.inputs := rfl
@[simp] theorem State.setGate_readData (s : State) (tim gpio : Bool) : (s.setGate tim gpio).readData = s.readData := rfl
@[simp] theorem State.setGate_steps (s : State) (tim gpio : Bool) : (s.setGate tim gpio).steps = s.steps := rfl
@[simp] theorem State.setGate_pin (s : State) (tim gpio : Bool) (j : Nat) : (s.setGate tim gpio).pin j = s.pin j := rfl

/-! ### setCtrl -/

@[simp] theorem State.setCtrl_timClkEn (s : State) (c h : Bool) : (s.setCtrl c h).timClkEn = s.timClkEn := rfl
@[simp] theorem State.setCtrl_gpioClkEn (s : State) (c h : Bool) : (s.setCtrl c h).gpioClkEn = s.gpioClkEn := rfl
@[simp] theorem State.setCtrl_cen (s : State) (c h : Bool) : (s.setCtrl c h).cen = c := rfl
@[simp] theorem State.setCtrl_chen (s : State) (c h : Bool) : (s.setCtrl c h).chen = h := rfl
@[simp] theorem State.setCtrl_ocMode (s : State) (c h : Bool) : (s.setCtrl c h).ocMode = s.ocMode := rfl
@[simp] theorem State.setCtrl_fastEn (s : State) (c h : Bool) : (s.setCtrl c h).fastEn = s.fastEn := rfl
@[simp] theorem State.setCtrl_psc (s : State) (c h : Bool) : (s.setCtrl c h).psc = s.psc := rfl
@[simp] theorem State.setCtrl_arr (s : State) (c h : Bool) : (s.setCtrl c h).arr = s.arr := rfl
@[simp] theorem State.setCtrl_ccrPre (s : State) (c h : Bool) : (s.setCtrl c h).ccrPre = s.ccrPre := rfl
@[simp] theorem State.setCtrl_ccrAct (s : State) (c h : Bool) : (s.setCtrl c h).ccrAct = s.ccrAct := rfl
@[simp] theorem State.setCtrl_cnt (s : State) (c h : Bool) : (s.setCtrl c h).cnt = s.cnt := rfl
@[simp] theorem State.setCtrl_pcnt (s : State) (c h : Bool) : (s.setCtrl c h).pcnt = s.pcnt := rfl
@[simp] theorem State.setCtrl_pins (s : State) (c h : Bool) : (s.setCtrl c h).pins = s.pins := rfl
@[simp] theorem State.setCtrl_faultRecord (s : State) (c h : Bool) : (s.setCtrl c h).faultRecord = s.faultRecord := rfl
@[simp] theorem State.setCtrl_inputs (s : State) (c h : Bool) : (s.setCtrl c h).inputs = s.inputs := rfl
@[simp] theorem State.setCtrl_readData (s : State) (c h : Bool) : (s.setCtrl c h).readData = s.readData := rfl
@[simp] theorem State.setCtrl_steps (s : State) (c h : Bool) : (s.setCtrl c h).steps = s.steps := rfl
@[simp] theorem State.setCtrl_pin (s : State) (c h : Bool) (j : Nat) : (s.setCtrl c h).pin j = s.pin j := rfl

/-! ### setChcfg -/

@[simp] theorem State.setChcfg_timClkEn (s : State) (m : OcMode) (f : Bool) : (s.setChcfg m f).timClkEn = s.timClkEn := rfl
@[simp] theorem State.setChcfg_gpioClkEn (s : State) (m : OcMode) (f : Bool) : (s.setChcfg m f).gpioClkEn = s.gpioClkEn := rfl
@[simp] theorem State.setChcfg_cen (s : State) (m : OcMode) (f : Bool) : (s.setChcfg m f).cen = s.cen := rfl
@[simp] theorem State.setChcfg_chen (s : State) (m : OcMode) (f : Bool) : (s.setChcfg m f).chen = s.chen := rfl
@[simp] theorem State.setChcfg_ocMode (s : State) (m : OcMode) (f : Bool) : (s.setChcfg m f).ocMode = m := rfl
@[simp] theorem State.setChcfg_fastEn (s : State) (m : OcMode) (f : Bool) : (s.setChcfg m f).fastEn = f := rfl
@[simp] theorem State.setChcfg_psc (s : State) (m : OcMode) (f : Bool) : (s.setChcfg m f).psc = s.psc := rfl
@[simp] theorem State.setChcfg_arr (s : State) (m : OcMode) (f : Bool) : (s.setChcfg m f).arr = s.arr := rfl
@[simp] theorem State.setChcfg_ccrPre (s : State) (m : OcMode) (f : Bool) : (s.setChcfg m f).ccrPre = s.ccrPre := rfl
@[simp] theorem State.setChcfg_ccrAct (s : State) (m : OcMode) (f : Bool) : (s.setChcfg m f).ccrAct = s.ccrAct := rfl
@[simp] theorem State.setChcfg_cnt (s : State) (m : OcMode) (f : Bool) : (s.setChcfg m f).cnt = s.cnt := rfl
@[simp] theorem State.setChcfg_pcnt (s : State) (m : OcMode) (f : Bool) : (s.setChcfg m f).pcnt = s.pcnt := rfl
@[simp] theorem State.setChcfg_pins (s : State) (m : OcMode) (f : Bool) : (s.setChcfg m f).pins = s.pins := rfl
@[simp] theorem State.setChcfg_faultRecord (s : State) (m : OcMode) (f : Bool) : (s.setChcfg m f).faultRecord = s.faultRecord := rfl
@[simp] theorem State.setChcfg_inputs (s : State) (m : OcMode) (f : Bool) : (s.setChcfg m f).inputs = s.inputs := rfl
@[simp] theorem State.setChcfg_readData (s : State) (m : OcMode) (f : Bool) : (s.setChcfg m f).readData = s.readData := rfl
@[simp] theorem State.setChcfg_steps (s : State) (m : OcMode) (f : Bool) : (s.setChcfg m f).steps = s.steps := rfl
@[simp] theorem State.setChcfg_pin (s : State) (m : OcMode) (f : Bool) (j : Nat) : (s.setChcfg m f).pin j = s.pin j := rfl

/-! ### setPsc -/

@[simp] theorem State.setPsc_timClkEn (s : State) (v : Half) : (s.setPsc v).timClkEn = s.timClkEn := rfl
@[simp] theorem State.setPsc_gpioClkEn (s : State) (v : Half) : (s.setPsc v).gpioClkEn = s.gpioClkEn := rfl
@[simp] theorem State.setPsc_cen (s : State) (v : Half) : (s.setPsc v).cen = s.cen := rfl
@[simp] theorem State.setPsc_chen (s : State) (v : Half) : (s.setPsc v).chen = s.chen := rfl
@[simp] theorem State.setPsc_ocMode (s : State) (v : Half) : (s.setPsc v).ocMode = s.ocMode := rfl
@[simp] theorem State.setPsc_fastEn (s : State) (v : Half) : (s.setPsc v).fastEn = s.fastEn := rfl
@[simp] theorem State.setPsc_psc (s : State) (v : Half) : (s.setPsc v).psc = some v := rfl
@[simp] theorem State.setPsc_arr (s : State) (v : Half) : (s.setPsc v).arr = s.arr := rfl
@[simp] theorem State.setPsc_ccrPre (s : State) (v : Half) : (s.setPsc v).ccrPre = s.ccrPre := rfl
@[simp] theorem State.setPsc_ccrAct (s : State) (v : Half) : (s.setPsc v).ccrAct = s.ccrAct := rfl
@[simp] theorem State.setPsc_cnt (s : State) (v : Half) : (s.setPsc v).cnt = s.cnt := rfl
@[simp] theorem State.setPsc_pcnt (s : State) (v : Half) : (s.setPsc v).pcnt = s.pcnt := rfl
@[simp] theorem State.setPsc_pins (s : State) (v : Half) : (s.setPsc v).pins = s.pins := rfl
@[simp] theorem State.setPsc_faultRecord (s : State) (v : Half) : (s.setPsc v).faultRecord = s.faultRecord := rfl
@[simp] theorem State.setPsc_inputs (s : State) (v : Half) : (s.setPsc v).inputs = s.inputs := rfl
@[simp] theorem State.setPsc_readData (s : State) (v : Half) : (s.setPsc v).readData = s.readData := rfl
@[simp] theorem State.setPsc_steps (s : State) (v : Half) : (s.setPsc v).steps = s.steps := rfl
@[simp] theorem State.setPsc_pin (s : State) (v : Half) (j : Nat) : (s.setPsc v).pin j = s.pin j := rfl

/-! ### setArr -/

@[simp] theorem State.setArr_timClkEn (s : State) (v : Word) : (s.setArr v).timClkEn = s.timClkEn := rfl
@[simp] theorem State.setArr_gpioClkEn (s : State) (v : Word) : (s.setArr v).gpioClkEn = s.gpioClkEn := rfl
@[simp] theorem State.setArr_cen (s : State) (v : Word) : (s.setArr v).cen = s.cen := rfl
@[simp] theorem State.setArr_chen (s : State) (v : Word) : (s.setArr v).chen = s.chen := rfl
@[simp] theorem State.setArr_ocMode (s : State) (v : Word) : (s.setArr v).ocMode = s.ocMode := rfl
@[simp] theorem State.setArr_fastEn (s : State) (v : Word) : (s.setArr v).fastEn = s.fastEn := rfl
@[simp] theorem State.setArr_psc (s : State) (v : Word) : (s.setArr v).psc = s.psc := rfl
@[simp] theorem State.setArr_arr (s : State) (v : Word) : (s.setArr v).arr = some v := rfl
@[simp] theorem State.setArr_ccrPre (s : State) (v : Word) : (s.setArr v).ccrPre = s.ccrPre := rfl
@[simp] theorem State.setArr_ccrAct (s : State) (v : Word) : (s.setArr v).ccrAct = s.ccrAct := rfl
@[simp] theorem State.setArr_cnt (s : State) (v : Word) : (s.setArr v).cnt = s.cnt := rfl
@[simp] theorem State.setArr_pcnt (s : State) (v : Word) : (s.setArr v).pcnt = s.pcnt := rfl
@[simp] theorem State.setArr_pins (s : State) (v : Word) : (s.setArr v).pins = s.pins := rfl
@[simp] theorem State.setArr_faultRecord (s : State) (v : Word) : (s.setArr v).faultRecord = s.faultRecord := rfl
@[simp] theorem State.setArr_inputs (s : State) (v : Word) : (s.setArr v).inputs = s.inputs := rfl
@[simp] theorem State.setArr_readData (s : State) (v : Word) : (s.setArr v).readData = s.readData := rfl
@[simp] theorem State.setArr_steps (s : State) (v : Word) : (s.setArr v).steps = s.steps := rfl
@[simp] theorem State.setArr_pin (s : State) (v : Word) (j : Nat) : (s.setArr v).pin j = s.pin j := rfl

/-! ### setCcrPre -/

@[simp] theorem State.setCcrPre_timClkEn (s : State) (v : Word) : (s.setCcrPre v).timClkEn = s.timClkEn := rfl
@[simp] theorem State.setCcrPre_gpioClkEn (s : State) (v : Word) : (s.setCcrPre v).gpioClkEn = s.gpioClkEn := rfl
@[simp] theorem State.setCcrPre_cen (s : State) (v : Word) : (s.setCcrPre v).cen = s.cen := rfl
@[simp] theorem State.setCcrPre_chen (s : State) (v : Word) : (s.setCcrPre v).chen = s.chen := rfl
@[simp] theorem State.setCcrPre_ocMode (s : State) (v : Word) : (s.setCcrPre v).ocMode = s.ocMode := rfl
@[simp] theorem State.setCcrPre_fastEn (s : State) (v : Word) : (s.setCcrPre v).fastEn = s.fastEn := rfl
@[simp] theorem State.setCcrPre_psc (s : State) (v : Word) : (s.setCcrPre v).psc = s.psc := rfl
@[simp] theorem State.setCcrPre_arr (s : State) (v : Word) : (s.setCcrPre v).arr = s.arr := rfl
@[simp] theorem State.setCcrPre_ccrPre (s : State) (v : Word) : (s.setCcrPre v).ccrPre = some v := rfl
@[simp] theorem State.setCcrPre_ccrAct (s : State) (v : Word) : (s.setCcrPre v).ccrAct = s.ccrAct := rfl
@[simp] theorem State.setCcrPre_cnt (s : State) (v : Word) : (s.setCcrPre v).cnt = s.cnt := rfl
@[simp] theorem State.setCcrPre_pcnt (s : State) (v : Word) : (s.setCcrPre v).pcnt = s.pcnt := rfl
@[simp] theorem State.setCcrPre_pins (s : State) (v : Word) : (s.setCcrPre v).pins = s.pins := rfl
@[simp] theorem State.setCcrPre_faultRecord (s : State) (v : Word) : (s.setCcrPre v).faultRecord = s.faultRecord := rfl
@[simp] theorem State.setCcrPre_inputs (s : State) (v : Word) : (s.setCcrPre v).inputs = s.inputs := rfl
@[simp] theorem State.setCcrPre_readData (s : State) (v : Word) : (s.setCcrPre v).readData = s.readData := rfl
@[simp] theorem State.setCcrPre_steps (s : State) (v : Word) : (s.setCcrPre v).steps = s.steps := rfl
@[simp] theorem State.setCcrPre_pin (s : State) (v : Word) (j : Nat) : (s.setCcrPre v).pin j = s.pin j := rfl

/-! ### setCcrAct -/

@[simp] theorem State.setCcrAct_timClkEn (s : State) (v : Word) : (s.setCcrAct v).timClkEn = s.timClkEn := rfl
@[simp] theorem State.setCcrAct_gpioClkEn (s : State) (v : Word) : (s.setCcrAct v).gpioClkEn = s.gpioClkEn := rfl
@[simp] theorem State.setCcrAct_cen (s : State) (v : Word) : (s.setCcrAct v).cen = s.cen := rfl
@[simp] theorem State.setCcrAct_chen (s : State) (v : Word) : (s.setCcrAct v).chen = s.chen := rfl
@[simp] theorem State.setCcrAct_ocMode (s : State) (v : Word) : (s.setCcrAct v).ocMode = s.ocMode := rfl
@[simp] theorem State.setCcrAct_fastEn (s : State) (v : Word) : (s.setCcrAct v).fastEn = s.fastEn := rfl
@[simp] theorem State.setCcrAct_psc (s : State) (v : Word) : (s.setCcrAct v).psc = s.psc := rfl
@[simp] theorem State.setCcrAct_arr (s : State) (v : Word) : (s.setCcrAct v).arr = s.arr := rfl
@[simp] theorem State.setCcrAct_ccrPre (s : State) (v : Word) : (s.setCcrAct v).ccrPre = s.ccrPre := rfl
@[simp] theorem State.setCcrAct_ccrAct (s : State) (v : Word) : (s.setCcrAct v).ccrAct = some v := rfl
@[simp] theorem State.setCcrAct_cnt (s : State) (v : Word) : (s.setCcrAct v).cnt = s.cnt := rfl
@[simp] theorem State.setCcrAct_pcnt (s : State) (v : Word) : (s.setCcrAct v).pcnt = s.pcnt := rfl
@[simp] theorem State.setCcrAct_pins (s : State) (v : Word) : (s.setCcrAct v).pins = s.pins := rfl
@[simp] theorem State.setCcrAct_faultRecord (s : State) (v : Word) : (s.setCcrAct v).faultRecord = s.faultRecord := rfl
@[simp] theorem State.setCcrAct_inputs (s : State) (v : Word) : (s.setCcrAct v).inputs = s.inputs := rfl
@[simp] theorem State.setCcrAct_readData (s : State) (v : Word) : (s.setCcrAct v).readData = s.readData := rfl
@[simp] theorem State.setCcrAct_steps (s : State) (v : Word) : (s.setCcrAct v).steps = s.steps := rfl
@[simp] theorem State.setCcrAct_pin (s : State) (v : Word) (j : Nat) : (s.setCcrAct v).pin j = s.pin j := rfl

/-! ### loadCcr -/

@[simp] theorem State.loadCcr_timClkEn (s : State) : (s.loadCcr).timClkEn = s.timClkEn := rfl
@[simp] theorem State.loadCcr_gpioClkEn (s : State) : (s.loadCcr).gpioClkEn = s.gpioClkEn := rfl
@[simp] theorem State.loadCcr_cen (s : State) : (s.loadCcr).cen = s.cen := rfl
@[simp] theorem State.loadCcr_chen (s : State) : (s.loadCcr).chen = s.chen := rfl
@[simp] theorem State.loadCcr_ocMode (s : State) : (s.loadCcr).ocMode = s.ocMode := rfl
@[simp] theorem State.loadCcr_fastEn (s : State) : (s.loadCcr).fastEn = s.fastEn := rfl
@[simp] theorem State.loadCcr_psc (s : State) : (s.loadCcr).psc = s.psc := rfl
@[simp] theorem State.loadCcr_arr (s : State) : (s.loadCcr).arr = s.arr := rfl
@[simp] theorem State.loadCcr_ccrPre (s : State) : (s.loadCcr).ccrPre = s.ccrPre := rfl
@[simp] theorem State.loadCcr_ccrAct (s : State) : (s.loadCcr).ccrAct = s.ccrPre := rfl
@[simp] theorem State.loadCcr_cnt (s : State) : (s.loadCcr).cnt = s.cnt := rfl
@[simp] theorem State.loadCcr_pcnt (s : State) : (s.loadCcr).pcnt = s.pcnt := rfl
@[simp] theorem State.loadCcr_pins (s : State) : (s.loadCcr).pins = s.pins := rfl
@[simp] theorem State.loadCcr_faultRecord (s : State) : (s.loadCcr).faultRecord = s.faultRecord := rfl
@[simp] theorem State.loadCcr_inputs (s : State) : (s.loadCcr).inputs = s.inputs := rfl
@[simp] theorem State.loadCcr_readData (s : State) : (s.loadCcr).readData = s.readData := rfl
@[simp] theorem State.loadCcr_steps (s : State) : (s.loadCcr).steps = s.steps := rfl
@[simp] theorem State.loadCcr_pin (s : State) (j : Nat) : (s.loadCcr).pin j = s.pin j := rfl

/-! ### setPcnt -/

@[simp] theorem State.setPcnt_timClkEn (s : State) (v : Half) : (s.setPcnt v).timClkEn = s.timClkEn := rfl
@[simp] theorem State.setPcnt_gpioClkEn (s : State) (v : Half) : (s.setPcnt v).gpioClkEn = s.gpioClkEn := rfl
@[simp] theorem State.setPcnt_cen (s : State) (v : Half) : (s.setPcnt v).cen = s.cen := rfl
@[simp] theorem State.setPcnt_chen (s : State) (v : Half) : (s.setPcnt v).chen = s.chen := rfl
@[simp] theorem State.setPcnt_ocMode (s : State) (v : Half) : (s.setPcnt v).ocMode = s.ocMode := rfl
@[simp] theorem State.setPcnt_fastEn (s : State) (v : Half) : (s.setPcnt v).fastEn = s.fastEn := rfl
@[simp] theorem State.setPcnt_psc (s : State) (v : Half) : (s.setPcnt v).psc = s.psc := rfl
@[simp] theorem State.setPcnt_arr (s : State) (v : Half) : (s.setPcnt v).arr = s.arr := rfl
@[simp] theorem State.setPcnt_ccrPre (s : State) (v : Half) : (s.setPcnt v).ccrPre = s.ccrPre := rfl
@[simp] theorem State.setPcnt_ccrAct (s : State) (v : Half) : (s.setPcnt v).ccrAct = s.ccrAct := rfl
@[simp] theorem State.setPcnt_cnt (s : State) (v : Half) : (s.setPcnt v).cnt = s.cnt := rfl
@[simp] theorem State.setPcnt_pcnt (s : State) (v : Half) : (s.setPcnt v).pcnt = v := rfl
@[simp] theorem State.setPcnt_pins (s : State) (v : Half) : (s.setPcnt v).pins = s.pins := rfl
@[simp] theorem State.setPcnt_faultRecord (s : State) (v : Half) : (s.setPcnt v).faultRecord = s.faultRecord := rfl
@[simp] theorem State.setPcnt_inputs (s : State) (v : Half) : (s.setPcnt v).inputs = s.inputs := rfl
@[simp] theorem State.setPcnt_readData (s : State) (v : Half) : (s.setPcnt v).readData = s.readData := rfl
@[simp] theorem State.setPcnt_steps (s : State) (v : Half) : (s.setPcnt v).steps = s.steps := rfl
@[simp] theorem State.setPcnt_pin (s : State) (v : Half) (j : Nat) : (s.setPcnt v).pin j = s.pin j := rfl

/-! ### setCnt -/

@[simp] theorem State.setCnt_timClkEn (s : State) (v : Word) : (s.setCnt v).timClkEn = s.timClkEn := rfl
@[simp] theorem State.setCnt_gpioClkEn (s : State) (v : Word) : (s.setCnt v).gpioClkEn = s.gpioClkEn := rfl
@[simp] theorem State.setCnt_cen (s : State) (v : Word) : (s.setCnt v).cen = s.cen := rfl
@[simp] theorem State.setCnt_chen (s : State) (v : Word) : (s.setCnt v).chen = s.chen := rfl
@[simp] theorem State.setCnt_ocMode (s : State) (v : Word) : (s.setCnt v).ocMode = s.ocMode := rfl
@[simp] theorem State.setCnt_fastEn (s : State) (v : Word) : (s.setCnt v).fastEn = s.fastEn := rfl
@[simp] theorem State.setCnt_psc (s : State) (v : Word) : (s.setCnt v).psc = s.psc := rfl
@[simp] theorem State.setCnt_arr (s : State) (v : Word) : (s.setCnt v).arr = s.arr := rfl
@[simp] theorem State.setCnt_ccrPre (s : State) (v : Word) : (s.setCnt v).ccrPre = s.ccrPre := rfl
@[simp] theorem State.setCnt_ccrAct (s : State) (v : Word) : (s.setCnt v).ccrAct = s.ccrAct := rfl
@[simp] theorem State.setCnt_cnt (s : State) (v : Word) : (s.setCnt v).cnt = v := rfl
@[simp] theorem State.setCnt_pcnt (s : State) (v : Word) : (s.setCnt v).pcnt = s.pcnt := rfl
@[simp] theorem State.setCnt_pins (s : State) (v : Word) : (s.setCnt v).pins = s.pins := rfl
@[simp] theorem State.setCnt_faultRecord (s : State) (v : Word) : (s.setCnt v).faultRecord = s.faultRecord := rfl
@[simp] theorem State.setCnt_inputs (s : State) (v : Word) : (s.setCnt v).inputs = s.inputs := rfl
@[simp] theorem State.setCnt_readData (s : State) (v : Word) : (s.setCnt v).readData = s.readData := rfl
@[simp] theorem State.setCnt_steps (s : State) (v : Word) : (s.setCnt v).steps = s.steps := rfl
@[simp] theorem State.setCnt_pin (s : State) (v : Word) (j : Nat) : (s.setCnt v).pin j = s.pin j := rfl

/-! ### setPin -/

@[simp] theorem State.setPin_timClkEn (s : State) (n : Nat) (c : PinCfg) : (s.setPin n c).timClkEn = s.timClkEn := rfl
@[simp] theorem State.setPin_gpioClkEn (s : State) (n : Nat) (c : PinCfg) : (s.setPin n c).gpioClkEn = s.gpioClkEn := rfl
@[simp] theorem State.setPin_cen (s : State) (n : Nat) (c : PinCfg) : (s.setPin n c).cen = s.cen := rfl
@[simp] theorem State.setPin_chen (s : State) (n : Nat) (c : PinCfg) : (s.setPin n c).chen = s.chen := rfl
@[simp] theorem State.setPin_ocMode (s : State) (n : Nat) (c : PinCfg) : (s.setPin n c).ocMode = s.ocMode := rfl
@[simp] theorem State.setPin_fastEn (s : State) (n : Nat) (c : PinCfg) : (s.setPin n c).fastEn = s.fastEn := rfl
@[simp] theorem State.setPin_psc (s : State) (n : Nat) (c : PinCfg) : (s.setPin n c).psc = s.psc := rfl
@[simp] theorem State.setPin_arr (s : State) (n : Nat) (c : PinCfg) : (s.setPin n c).arr = s.arr := rfl
@[simp] theorem State.setPin_ccrPre (s : State) (n : Nat) (c : PinCfg) : (s.setPin n c).ccrPre = s.ccrPre := rfl
@[simp] theorem State.setPin_ccrAct (s : State) (n : Nat) (c : PinCfg) : (s.setPin n c).ccrAct = s.ccrAct := rfl
@[simp] theorem State.setPin_cnt (s : State) (n : Nat) (c : PinCfg) : (s.setPin n c).cnt = s.cnt := rfl
@[simp] theorem State.setPin_pcnt (s : State) (n : Nat) (c : PinCfg) : (s.setPin n c).pcnt = s.pcnt := rfl
@[simp] theorem State.setPin_pins (s : State) (n : Nat) (c : PinCfg) : (s.setPin n c).pins = s.pins.setIfInBounds n c := rfl
@[simp] theorem State.setPin_faultRecord (s : State) (n : Nat) (c : PinCfg) : (s.setPin n c).faultRecord = s.faultRecord := rfl
@[simp] theorem State.setPin_inputs (s : State) (n : Nat) (c : PinCfg) : (s.setPin n c).inputs = s.inputs := rfl
@[simp] theorem State.setPin_readData (s : State) (n : Nat) (c : PinCfg) : (s.setPin n c).readData = s.readData := rfl
@[simp] theorem State.setPin_steps (s : State) (n : Nat) (c : PinCfg) : (s.setPin n c).steps = s.steps := rfl

/-! ### setReadData -/

@[simp] theorem State.setReadData_timClkEn (s : State) (v : Word) : (s.setReadData v).timClkEn = s.timClkEn := rfl
@[simp] theorem State.setReadData_gpioClkEn (s : State) (v : Word) : (s.setReadData v).gpioClkEn = s.gpioClkEn := rfl
@[simp] theorem State.setReadData_cen (s : State) (v : Word) : (s.setReadData v).cen = s.cen := rfl
@[simp] theorem State.setReadData_chen (s : State) (v : Word) : (s.setReadData v).chen = s.chen := rfl
@[simp] theorem State.setReadData_ocMode (s : State) (v : Word) : (s.setReadData v).ocMode = s.ocMode := rfl
@[simp] theorem State.setReadData_fastEn (s : State) (v : Word) : (s.setReadData v).fastEn = s.fastEn := rfl
@[simp] theorem State.setReadData_psc (s : State) (v : Word) : (s.setReadData v).psc = s.psc := rfl
@[simp] theorem State.setReadData_arr (s : State) (v : Word) : (s.setReadData v).arr = s.arr := rfl
@[simp] theorem State.setReadData_ccrPre (s : State) (v : Word) : (s.setReadData v).ccrPre = s.ccrPre := rfl
@[simp] theorem State.setReadData_ccrAct (s : State) (v : Word) : (s.setReadData v).ccrAct = s.ccrAct := rfl
@[simp] theorem State.setReadData_cnt (s : State) (v : Word) : (s.setReadData v).cnt = s.cnt := rfl
@[simp] theorem State.setReadData_pcnt (s : State) (v : Word) : (s.setReadData v).pcnt = s.pcnt := rfl
@[simp] theorem State.setReadData_pins (s : State) (v : Word) : (s.setReadData v).pins = s.pins := rfl
@[simp] theorem State.setReadData_faultRecord (s : State) (v : Word) : (s.setReadData v).faultRecord = s.faultRecord := rfl
@[simp] theorem State.setReadData_inputs (s : State) (v : Word) : (s.setReadData v).inputs = s.inputs := rfl
@[simp] theorem State.setReadData_readData (s : State) (v : Word) : (s.setReadData v).readData = some v := rfl
@[simp] theorem State.setReadData_steps (s : State) (v : Word) : (s.setReadData v).steps = s.steps := rfl
@[simp] theorem State.setReadData_pin (s : State) (v : Word) (j : Nat) : (s.setReadData v).pin j = s.pin j := rfl

/-! ### setFault -/

@[simp] theorem State.setFault_timClkEn (s : State) (f : Fault) : (s.setFault f).timClkEn = s.timClkEn := rfl
@[simp] theorem State.setFault_gpioClkEn (s : State) (f : Fault) : (s.setFault f).gpioClkEn = s.gpioClkEn := rfl
@[simp] theorem State.setFault_cen (s : State) (f : Fault) : (s.setFault f).cen = s.cen := rfl
@[simp] theorem State.setFault_chen (s : State) (f : Fault) : (s.setFault f).chen = s.chen := rfl
@[simp] theorem State.setFault_ocMode (s : State) (f : Fault) : (s.setFault f).ocMode = s.ocMode := rfl
@[simp] theorem State.setFault_fastEn (s : State) (f : Fault) : (s.setFault f).fastEn = s.fastEn := rfl
@[simp] theorem State.setFault_psc (s : State) (f : Fault) : (s.setFault f).psc = s.psc := rfl
@[simp] theorem State.setFault_arr (s : State) (f : Fault) : (s.setFault f).arr = s.arr := rfl
@[simp] theorem State.setFault_ccrPre (s : State) (f : Fault) : (s.setFault f).ccrPre = s.ccrPre := rfl
@[simp] theorem State.setFault_ccrAct (s : State) (f : Fault) : (s.setFault f).ccrAct = s.ccrAct := rfl
@[simp] theorem State.setFault_cnt (s : State) (f : Fault) : (s.setFault f).cnt = s.cnt := rfl
@[simp] theorem State.setFault_pcnt (s : State) (f : Fault) : (s.setFault f).pcnt = s.pcnt := rfl
@[simp] theorem State.setFault_pins (s : State) (f : Fault) : (s.setFault f).pins = s.pins := rfl
@[simp] theorem State.setFault_faultRecord (s : State) (f : Fault) : (s.setFault f).faultRecord = some f := rfl
@[simp] theorem State.setFault_inputs (s : State) (f : Fault) : (s.setFault f).inputs = s.inputs := rfl
@[simp] theorem State.setFault_readData (s : State) (f : Fault) : (s.setFault f).readData = s.readData := rfl
@[simp] theorem State.setFault_steps (s : State) (f : Fault) : (s.setFault f).steps = s.steps := rfl
@[simp] theorem State.setFault_pin (s : State) (f : Fault) (j : Nat) : (s.setFault f).pin j = s.pin j := rfl

/-! ### advance -/

@[simp] theorem State.advance_timClkEn (s : State) (rest : List Input) : (s.advance rest).timClkEn = s.timClkEn := rfl
@[simp] theorem State.advance_gpioClkEn (s : State) (rest : List Input) : (s.advance rest).gpioClkEn = s.gpioClkEn := rfl
@[simp] theorem State.advance_cen (s : State) (rest : List Input) : (s.advance rest).cen = s.cen := rfl
@[simp] theorem State.advance_chen (s : State) (rest : List Input) : (s.advance rest).chen = s.chen := rfl
@[simp] theorem State.advance_ocMode (s : State) (rest : List Input) : (s.advance rest).ocMode = s.ocMode := rfl
@[simp] theorem State.advance_fastEn (s : State) (rest : List Input) : (s.advance rest).fastEn = s.fastEn := rfl
@[simp] theorem State.advance_psc (s : State) (rest : List Input) : (s.advance rest).psc = s.psc := rfl
@[simp] theorem State.advance_arr (s : State) (rest : List Input) : (s.advance rest).arr = s.arr := rfl
@[simp] theorem State.advance_ccrPre (s : State) (rest : List Input) : (s.advance rest).ccrPre = s.ccrPre := rfl
@[simp] theorem State.advance_ccrAct (s : State) (rest : List Input) : (s.advance rest).ccrAct = s.ccrAct := rfl
@[simp] theorem State.advance_cnt (s : State) (rest : List Input) : (s.advance rest).cnt = s.cnt := rfl
@[simp] theorem State.advance_pcnt (s : State) (rest : List Input) : (s.advance rest).pcnt = s.pcnt := rfl
@[simp] theorem State.advance_pins (s : State) (rest : List Input) : (s.advance rest).pins = s.pins := rfl
@[simp] theorem State.advance_faultRecord (s : State) (rest : List Input) : (s.advance rest).faultRecord = s.faultRecord := rfl
@[simp] theorem State.advance_inputs (s : State) (rest : List Input) : (s.advance rest).inputs = rest := rfl
@[simp] theorem State.advance_readData (s : State) (rest : List Input) : (s.advance rest).readData = s.readData := rfl
@[simp] theorem State.advance_steps (s : State) (rest : List Input) : (s.advance rest).steps = s.steps + 1 := rfl
@[simp] theorem State.advance_pin (s : State) (rest : List Input) (j : Nat) : (s.advance rest).pin j = s.pin j := rfl

/-! ### resetStep -/

@[simp] theorem State.resetStep_timClkEn (s : State) : s.resetStep.timClkEn = State.reset.timClkEn := rfl
@[simp] theorem State.resetStep_gpioClkEn (s : State) : s.resetStep.gpioClkEn = State.reset.gpioClkEn := rfl
@[simp] theorem State.resetStep_cen (s : State) : s.resetStep.cen = State.reset.cen := rfl
@[simp] theorem State.resetStep_chen (s : State) : s.resetStep.chen = State.reset.chen := rfl
@[simp] theorem State.resetStep_ocMode (s : State) : s.resetStep.ocMode = State.reset.ocMode := rfl
@[simp] theorem State.resetStep_fastEn (s : State) : s.resetStep.fastEn = State.reset.fastEn := rfl
@[simp] theorem State.resetStep_psc (s : State) : s.resetStep.psc = State.reset.psc := rfl
@[simp] theorem State.resetStep_arr (s : State) : s.resetStep.arr = State.reset.arr := rfl
@[simp] theorem State.resetStep_ccrPre (s : State) : s.resetStep.ccrPre = State.reset.ccrPre := rfl
@[simp] theorem State.resetStep_ccrAct (s : State) : s.resetStep.ccrAct = State.reset.ccrAct := rfl
@[simp] theorem State.resetStep_cnt (s : State) : s.resetStep.cnt = State.reset.cnt := rfl
@[simp] theorem State.resetStep_pcnt (s : State) : s.resetStep.pcnt = State.reset.pcnt := rfl
@[simp] theorem State.resetStep_pins (s : State) : s.resetStep.pins = State.reset.pins := rfl
@[simp] theorem State.resetStep_faultRecord (s : State) : s.resetStep.faultRecord = s.faultRecord := rfl
@[simp] theorem State.resetStep_inputs (s : State) : s.resetStep.inputs = s.inputs := rfl
@[simp] theorem State.resetStep_readData (s : State) : s.resetStep.readData = s.readData := rfl
@[simp] theorem State.resetStep_steps (s : State) : s.resetStep.steps = s.steps := rfl

/-! ### The pin bank -/

/-- A read of the pin just written gives what was written. -/
@[simp] theorem State.setPin_pin_self (s : State) {n : Nat} (h : n < Config.npins) (c : PinCfg) :
    (s.setPin n c).pin n = c := by
  simp [State.pin, State.setPin, Vector.getElem?_setIfInBounds_self_of_lt h]

/-- A write of one pin leaves every other pin alone. -/
theorem State.setPin_pin_ne (s : State) {n m : Nat} (h : n ≠ m) (c : PinCfg) : (s.setPin n c).pin m = s.pin m := by
  simp [State.pin, State.setPin, Vector.getElem?_setIfInBounds_ne h]

/-- Every pin reads as at reset in the reset state. -/
@[simp] theorem State.reset_pin (n : Nat) : State.reset.pin n = PinCfg.reset := by
  simp only [State.pin, State.reset, Vector.getElem?_replicate]
  split <;> rfl

@[simp] theorem State.resetStep_pin (s : State) (n : Nat) : s.resetStep.pin n = PinCfg.reset :=
  State.reset_pin n

end Sys2Proof.Machine
end

