-- ==== Sys2Proof/Laws/Counter.lean ====
section
/-! SUPPORT. Everything a TICK can do, said once, and the laws of runs of TICKs. -/

namespace Sys2Proof.Machine

/-- A TICK while not counting changes nothing. -/
theorem tick_idle {s : State} (h : s.counting = false) : tick s = s := by simp [tick, h]

/-- A TICK while counting is one of three: the prescaler advances, the counter advances, or the update event. -/
theorem tick_cases {s : State} (h : s.counting = true) :
    (s.psc ≠ some s.pcnt ∧ tick s = s.setPcnt (s.pcnt + 1#16)) ∨
    (s.psc = some s.pcnt ∧ s.arr ≠ some s.cnt ∧ tick s = (s.setPcnt 0#16).setCnt (s.cnt + 1#32)) ∨
    (s.psc = some s.pcnt ∧ s.arr = some s.cnt ∧ tick s = ((s.setPcnt 0#16).setCnt 0#32).loadCcr) := by
  by_cases hp : s.psc = some s.pcnt
  · by_cases ha : s.arr = some s.cnt
    · exact .inr (.inr ⟨hp, ha, by simp [tick, h, State.prescalerDone, State.atTop, ← hp, ← ha]⟩)
    · exact .inr (.inl ⟨hp, ha, by simp [tick, h, State.prescalerDone, State.atTop, ← hp, ha]⟩)
  · exact .inl ⟨hp, by simp [tick, h, State.prescalerDone, hp]⟩

/-- A TICK touches only `PCNT`, `CNT` and `CCR_act`. -/
theorem tick_frame (s : State) :
    ∃ p c d, tick s = { s with pcnt := p, cnt := c, ccrAct := d } := by
  cases h : s.counting
  · exact ⟨s.pcnt, s.cnt, s.ccrAct, by rw [tick_idle h]⟩
  · obtain ⟨-, e⟩ | ⟨-, -, e⟩ | ⟨-, -, e⟩ := tick_cases h <;> exact ⟨_, _, _, e⟩

@[simp] theorem ticks_zero (s : State) : ticks 0 s = s := rfl

theorem ticks_succ (k : Nat) (s : State) : ticks (k + 1) s = tick (ticks k s) := rfl

/-- Runs of TICKs compose. -/
theorem ticks_add (j k : Nat) (s : State) : ticks (j + k) s = ticks k (ticks j s) := by
  induction k with
  | zero => rfl
  | succ k ih => rw [← Nat.add_assoc, ticks_succ, ih, ticks_succ]

/-- TICKs while not counting change nothing (43_counter_compare.md R162). -/
theorem ticks_idle {s : State} (h : s.counting = false) (k : Nat) : ticks k s = s := by
  induction k with
  | zero => rfl
  | succ k ih => rw [ticks_succ, ih, tick_idle h]

/-- A run of TICKs touches only `PCNT`, `CNT` and `CCR_act`. -/
theorem ticks_frame (k : Nat) (s : State) :
    ∃ p c d, ticks k s = { s with pcnt := p, cnt := c, ccrAct := d } := by
  induction k with
  | zero => exact ⟨_, _, _, rfl⟩
  | succ k ih =>
    obtain ⟨p, c, d, e⟩ := ih
    obtain ⟨p', c', d', e'⟩ := tick_frame (ticks k s)
    exact ⟨p', c', d', by rw [ticks_succ, e', e]⟩

end Sys2Proof.Machine
end

