-- ==== Sys2Proof/Laws/Decode.lean ====
section
/-! SUPPORT. The fields of a word built as a pattern with operands in their places: the data operand reaches bits 31:0 only
and the pin operand bits 37:34 only. -/

namespace Sys2Proof

theorem getLsbD_or_dataBits_of_ge (m : TxnWord) (v : Word) {i : Nat} (h : 32 ≤ i) :
    (m ||| dataBits v).getLsbD i = m.getLsbD i := by
  simp only [dataBits, BitVec.getLsbD_or, BitVec.getLsbD_setWidth, BitVec.getLsbD_of_ge v i h, Bool.and_false,
    Bool.or_false]

/-- A field above bit 31 does not see the data. -/
theorem extractLsb'_or_dataBits_of_ge (m : TxnWord) (v : Word) {lo len : Nat} (h : 32 ≤ lo) :
    (m ||| dataBits v).extractLsb' lo len = m.extractLsb' lo len := by
  ext i hi
  simp only [BitVec.getElem_extractLsb', getLsbD_or_dataBits_of_ge m v (Nat.le_trans h (Nat.le_add_right lo i))]

/-- An index that the offset field has room for stands in its place unchanged. -/
theorem pinBits_of_lt {n : Nat} (h : n < 64) : pinBits n = BitVec.ofNat 48 n <<< 34 := by
  rw [pinBits, Nat.min_eq_left (Nat.le_of_lt_succ h)]

/-- The field `DATA` of a pattern with no data bits is the operand. -/
theorem txnData_or_dataBits {m : TxnWord} (v : Word) (h : txnData m = 0#32) : txnData (m ||| dataBits v) = v := by
  apply BitVec.eq_of_getLsbD_eq
  intro i hi
  have hm := congrArg (fun b => b.getLsbD i) h
  have hi' : i < 48 := by omega
  simp only [txnData, BitVec.getLsbD_extractLsb', hi, decide_true, Bool.true_and, Nat.zero_add] at hm ⊢
  simp only [dataBits, BitVec.getLsbD_or, BitVec.getLsbD_setWidth, hi', decide_true, Bool.true_and, hm,
    BitVec.getLsbD_zero, Bool.false_or]

/-- What the decoder needs to know of a word: with the four tests of R76 passed it answers the transaction of the register
at the offset. -/
theorem decode_eq_ok {w : TxnWord} {r : Reg} (h1 : txnRsv w = false) (h2 : txnRw w = true ∨ txnData w = 0#32)
    (h3 : txnSize w = 0b10#2) (h4 : (txnOff w).extractLsb' 0 2 = 0#2) (h5 : lookup (txnOff w) = some r) :
    decode w = .ok (if txnRw w then r.write (txnData w) else r.read) := by
  have h0 : ¬ (txnRsv w = true ∨ (txnRw w = false ∧ txnData w ≠ 0#32)) := by
    rintro (h | ⟨h, h'⟩)
    · rw [h1] at h; cases h
    · rcases h2 with h2 | h2
      · rw [h] at h2; cases h2
      · exact h' h2
  simp only [decode, if_neg h0, h3, ne_eq, not_true, if_false, h4, h5]

end Sys2Proof
end

