-- ==== Sys2Proof/Laws/Operands.lean ====
section
/-! SUPPORT. Everything the operand forms can do: what each field decoder answers, and that a field's bits and its meaning
are each other's inverse. -/

namespace Sys2Proof.Machine

/-! ### Field encodings are inverse -/

@[simp] theorem OcMode.ofBits_bits (m : OcMode) : OcMode.ofBits m.bits = some m := by cases m <;> rfl

@[simp] theorem PinMode.ofBits_bits (m : PinMode) : PinMode.ofBits m.bits = some m := by cases m <;> rfl

@[simp] theorem PinOtype.ofBits_bits (t : PinOtype) : PinOtype.ofBits t.bits = t := by cases t <;> rfl

@[simp] theorem PinPull.ofBits_bits (p : PinPull) : PinPull.ofBits p.bits = some p := by cases p <;> rfl

@[simp] theorem PinSpeed.ofBits_bits (s : PinSpeed) : PinSpeed.ofBits s.bits = s := by cases s <;> rfl

theorem OcMode.ofBits_eq_some {b : BitVec 2} {m : OcMode} : OcMode.ofBits b = some m ↔ m.bits = b := by
  revert b; cases m <;> decide

theorem PinMode.ofBits_eq_some {b : BitVec 2} {m : PinMode} : PinMode.ofBits b = some m ↔ m.bits = b := by
  revert b; cases m <;> decide

theorem PinPull.ofBits_eq_some {b : BitVec 2} {p : PinPull} : PinPull.ofBits b = some p ↔ p.bits = b := by
  revert b; cases p <;> decide

theorem OcMode.ofBits_eq_none {b : BitVec 2} : OcMode.ofBits b = none ↔ b = 0b10#2 ∨ b = 0b11#2 := by
  revert b; decide

theorem PinMode.ofBits_eq_none {b : BitVec 2} : PinMode.ofBits b = none ↔ b = 0b01#2 ∨ b = 0b11#2 := by
  revert b; decide

theorem PinPull.ofBits_eq_none {b : BitVec 2} : PinPull.ofBits b = none ↔ b = 0b11#2 := by
  revert b; decide

@[simp] theorem PinOtype.bits_ofBits (b : BitVec 1) : (PinOtype.ofBits b).bits = b := by revert b; decide

@[simp] theorem PinSpeed.bits_ofBits (b : BitVec 2) : (PinSpeed.ofBits b).bits = b := by revert b; decide

/-! ### Field decoders -/

theorem twoFlagsOfData_eq_some {v : Word} {g : Bool × Bool} :
    twoFlagsOfData v = some g ↔ v.extractLsb' 2 30 = 0#30 ∧ g = (v.getLsbD 0, v.getLsbD 1) := by
  simp [twoFlagsOfData, eq_comm]

theorem twoFlagsOfData_eq_none {v : Word} : twoFlagsOfData v = none ↔ v.extractLsb' 2 30 ≠ 0#30 := by
  simp [twoFlagsOfData]

theorem pscOfData_eq_some {v : Word} {p : Half} :
    pscOfData v = some p ↔ v.extractLsb' 16 16 = 0#16 ∧ p = v.extractLsb' 0 16 := by
  simp [pscOfData, eq_comm]

theorem pscOfData_eq_none {v : Word} : pscOfData v = none ↔ v.extractLsb' 16 16 ≠ 0#16 := by
  simp [pscOfData]

theorem chcfgOfData_eq_some {v : Word} {g : OcMode × Bool} :
    chcfgOfData v = some g ↔ v.extractLsb' 3 29 = 0#29 ∧ g.1.bits = v.extractLsb' 0 2 ∧ g.2 = v.getLsbD 2 := by
  obtain ⟨m, f⟩ := g
  rw [← OcMode.ofBits_eq_some]
  unfold chcfgOfData
  by_cases h : v.extractLsb' 3 29 = 0#29
  · cases e : OcMode.ofBits (v.extractLsb' 0 2) <;> simp only [h, if_true, true_and, reduceCtorEq, false_and,
      Option.some.injEq, Prod.mk.injEq, eq_comm (a := f)]
  · simp only [h, if_false, reduceCtorEq, false_and]

theorem chcfgOfData_eq_none {v : Word} :
    chcfgOfData v = none ↔
      v.extractLsb' 3 29 ≠ 0#29 ∨ v.extractLsb' 0 2 = 0b10#2 ∨ v.extractLsb' 0 2 = 0b11#2 := by
  rw [← OcMode.ofBits_eq_none]
  unfold chcfgOfData
  split
  · next h => split <;> next e => simp [h, e]
  · next h => simp [h]

theorem pinOfData_eq_some {v : Word} {c : PinCfg} :
    pinOfData v = some c ↔ v.extractLsb' 12 20 = 0#20 ∧ v.getLsbD 7 = false ∧ c.mode.bits = v.extractLsb' 0 2 ∧
      c.otype.bits = v.extractLsb' 2 1 ∧ c.pull.bits = v.extractLsb' 3 2 ∧ c.speed.bits = v.extractLsb' 5 2 ∧
      c.af = v.extractLsb' 8 4 := by
  obtain ⟨m, t, p, sp, a⟩ := c
  have ht : t.bits = v.extractLsb' 2 1 ↔ PinOtype.ofBits (v.extractLsb' 2 1) = t :=
    ⟨fun e => by rw [← e, PinOtype.ofBits_bits], fun e => by rw [← e, PinOtype.bits_ofBits]⟩
  have hs : sp.bits = v.extractLsb' 5 2 ↔ PinSpeed.ofBits (v.extractLsb' 5 2) = sp :=
    ⟨fun e => by rw [← e, PinSpeed.ofBits_bits], fun e => by rw [← e, PinSpeed.bits_ofBits]⟩
  rw [← PinMode.ofBits_eq_some, ← PinPull.ofBits_eq_some, ht, hs]
  unfold pinOfData
  by_cases h : v.extractLsb' 12 20 = 0#20 ∧ v.getLsbD 7 = false
  · cases e1 : PinMode.ofBits (v.extractLsb' 0 2) <;> cases e2 : PinPull.ofBits (v.extractLsb' 3 2) <;>
      simp only [h.1, h.2, and_self, if_true, true_and, reduceCtorEq, false_and, and_false, Option.some.injEq,
        PinCfg.mk.injEq, eq_comm (a := a)]
  · simp only [if_neg h, reduceCtorEq, false_iff]
    exact fun hh => h ⟨hh.1, hh.2.1⟩

theorem pinOfData_eq_none {v : Word} :
    pinOfData v = none ↔ v.extractLsb' 12 20 ≠ 0#20 ∨ v.getLsbD 7 = true ∨ v.extractLsb' 0 2 = 0b01#2 ∨
      v.extractLsb' 0 2 = 0b11#2 ∨ v.extractLsb' 3 2 = 0b11#2 := by
  rw [← or_assoc (a := v.extractLsb' 0 2 = 0b01#2), ← PinMode.ofBits_eq_none, ← PinPull.ofBits_eq_none]
  unfold pinOfData
  by_cases h : v.extractLsb' 12 20 = 0#20 ∧ v.getLsbD 7 = false
  · cases e1 : PinMode.ofBits (v.extractLsb' 0 2) <;> cases e2 : PinPull.ofBits (v.extractLsb' 3 2) <;>
      simp only [h.1, h.2, and_self, if_true, reduceCtorEq, ne_eq, not_true, or_false, or_true, or_self]
  · simp only [if_neg h, true_iff]
    by_cases h1 : v.extractLsb' 12 20 = 0#20
    · exact .inr (.inl (Bool.eq_true_of_not_eq_false fun e => h ⟨h1, e⟩))
    · exact .inl h1

end Sys2Proof.Machine
end

