-- ==== Sys2Proof/Laws/Ops.lean ====
section
/-! SUPPORT. One lemma per shared operation that says everything it can do, for the provers to cite instead of unfolding
it: when a check passes and what it answers when it does not, for each of the outcomes. -/

namespace Sys2Proof.Machine

/-! ### require -/

@[simp] theorem require_pos {c : Prop} [Decidable c] (h : c) (f : Fault) (k : Result) : require c f k = k := if_pos h

@[simp] theorem require_neg {c : Prop} [Decidable c] (h : ¬ c) (f : Fault) (k : Result) : require c f k = .fault f :=
  if_neg h

/-- A check answers a next state exactly when it passes and the rest does. -/
theorem require_eq_next {c : Prop} [Decidable c] {f : Fault} {k : Result} {t : State} :
    require c f k = .next t ↔ c ∧ k = .next t := by
  by_cases h : c <;> simp [require, h]

/-- A check answers a fault exactly when it fails with that fault, or passes and the rest does. -/
theorem require_eq_fault {c : Prop} [Decidable c] {f g : Fault} {k : Result} :
    require c f k = .fault g ↔ (¬ c ∧ f = g) ∨ (c ∧ k = .fault g) := by
  by_cases h : c <;> simp [require, h]

/-- A check itself never refuses. -/
theorem require_eq_refused {c : Prop} [Decidable c] {f : Fault} {k : Result} {r : Refusal} :
    require c f k = .refused r ↔ c ∧ k = .refused r := by
  by_cases h : c <;> simp [require, h]

/-! ### demand -/

@[simp] theorem demand_some {α : Type} (a : α) (f : Fault) (k : α → Result) : demand (some a) f k = k a := rfl

@[simp] theorem demand_none {α : Type} (f : Fault) (k : α → Result) : demand none f k = .fault f := rfl

/-- A demand answers a next state exactly when the value is there and the rest does. -/
theorem demand_eq_next {α : Type} {o : Option α} {f : Fault} {k : α → Result} {t : State} :
    demand o f k = .next t ↔ ∃ a, o = some a ∧ k a = .next t := by
  cases o <;> simp [demand]

/-- A demand answers a fault exactly when the value is absent, or is there and the rest faults. -/
theorem demand_eq_fault {α : Type} {o : Option α} {f g : Fault} {k : α → Result} :
    demand o f k = .fault g ↔ (o = none ∧ f = g) ∨ ∃ a, o = some a ∧ k a = .fault g := by
  cases o <;> simp [demand]

/-- A demand itself never refuses. -/
theorem demand_eq_refused {α : Type} {o : Option α} {f : Fault} {k : α → Result} {r : Refusal} :
    demand o f k = .refused r ↔ ∃ a, o = some a ∧ k a = .refused r := by
  cases o <;> simp [demand]

/-! ### The gate checks -/

theorem requireTimerClock_eq_next {i : Instr} {s t : State} {k : Result} :
    requireTimerClock i s k = .next t ↔ s.timClkEn = true ∧ k = .next t := require_eq_next

theorem requireTimerClock_eq_fault {i : Instr} {s : State} {k : Result} {g : Fault} :
    requireTimerClock i s k = .fault g ↔
      (s.timClkEn = false ∧ g = .gated (encode i)) ∨ (s.timClkEn = true ∧ k = .fault g) := by
  simp only [requireTimerClock, require_eq_fault, Bool.not_eq_true, eq_comm (a := g)]

theorem requireTimerClock_eq_refused {i : Instr} {s : State} {k : Result} {r : Refusal} :
    requireTimerClock i s k = .refused r ↔ s.timClkEn = true ∧ k = .refused r := require_eq_refused

theorem requirePin_eq_next {i : Instr} {n : Nat} {s t : State} {k : Result} :
    requirePin i n s k = .next t ↔ n < Config.npins ∧ s.gpioClkEn = true ∧ k = .next t := by
  simp only [requirePin, require_eq_next]

theorem requirePin_eq_fault {i : Instr} {n : Nat} {s : State} {k : Result} {g : Fault} :
    requirePin i n s k = .fault g ↔
      (Config.npins ≤ n ∧ g = .unmapped (encode i)) ∨
      (n < Config.npins ∧ s.gpioClkEn = false ∧ g = .gated (encode i)) ∨
      (n < Config.npins ∧ s.gpioClkEn = true ∧ k = .fault g) := by
  simp only [requirePin, require_eq_fault, Bool.not_eq_true, Nat.not_lt, eq_comm (a := g), and_or_left]

theorem requirePin_eq_refused {i : Instr} {n : Nat} {s : State} {k : Result} {r : Refusal} :
    requirePin i n s k = .refused r ↔ n < Config.npins ∧ s.gpioClkEn = true ∧ k = .refused r := by
  simp only [requirePin, require_eq_refused]

/-! ### answer and landing -/

/-- A read transaction's end answers the same state with the data returned. -/
theorem answer_eq_next {v : Word} {s t : State} : answer v s = .next t ↔ t = s.setReadData v := by
  simp [answer, eq_comm]

@[simp] theorem answer_ne_fault (v : Word) (s : State) (f : Fault) : answer v s ≠ .fault f := by simp [answer]

@[simp] theorem answer_ne_refused (v : Word) (s : State) (r : Refusal) : answer v s ≠ .refused r := by simp [answer]

@[simp] theorem landing_next (s t : State) : landing s (.next t) = t := rfl

@[simp] theorem landing_fault (s : State) (f : Fault) : landing s (.fault f) = s.setFault f := rfl

@[simp] theorem landing_refused (s : State) (r : Refusal) : landing s (.refused r) = s := rfl

end Sys2Proof.Machine
end

