-- ==== Sys2Proof/Laws/Exec.lean ====
section
/-! SUPPORT. The inversion lemmas: for each instruction, exactly when it answers a next state and which; what a step can do;
and what every transaction leaves alone of the model's own bookkeeping. Later proofs cite these and unfold no meaning. -/

namespace Sys2Proof.Machine

theorem execWrGate_next {v : Word} {s t : State} : exec (.wrGate v) s = .next t ↔
    v.extractLsb' 2 30 = 0#30 ∧ (s.timClkEn = true → v.getLsbD 0 = true) ∧ (s.gpioClkEn = true → v.getLsbD 1 = true) ∧
    t = s.setGate (v.getLsbD 0) (v.getLsbD 1) := by
  simp only [exec, execWrGate, demand_eq_next, twoFlagsOfData_eq_some, require_eq_next, not_or, not_and,
    Bool.not_eq_false, Host.Outcome.next.injEq]
  constructor
  · rintro ⟨g, ⟨h, rfl⟩, ⟨h0, h1⟩, rfl⟩; exact ⟨h, h0, h1, rfl⟩
  · rintro ⟨h, h0, h1, rfl⟩; exact ⟨_, ⟨h, rfl⟩, ⟨h0, h1⟩, rfl⟩

theorem execRdGate_next {s t : State} : exec .rdGate s = .next t ↔
    t = s.setReadData (twoFlagsData s.timClkEn s.gpioClkEn) := answer_eq_next

theorem execWrTimCtrl_next {v : Word} {s t : State} : exec (.wrTimCtrl v) s = .next t ↔
    s.timClkEn = true ∧ v.extractLsb' 2 30 = 0#30 ∧
    (s.starting (v.getLsbD 0) = true → s.counterReady = true ∧ s.degenerate = false) ∧
    (s.routing (v.getLsbD 1) = true → s.channelReady = true) ∧
    t = s.setCtrl (v.getLsbD 0) (v.getLsbD 1) := by
  simp only [exec, execWrTimCtrl, requireTimerClock_eq_next, demand_eq_next, twoFlagsOfData_eq_some, require_eq_next,
    not_and, Bool.not_eq_true, Bool.not_eq_false, Host.Outcome.next.injEq]
  constructor
  · rintro ⟨h, g, ⟨hv, rfl⟩, h1, h2, h3, rfl⟩; exact ⟨h, hv, fun e => ⟨h1 e, h3 e⟩, h2, rfl⟩
  · rintro ⟨h, hv, h1, h2, rfl⟩
    exact ⟨h, _, ⟨hv, rfl⟩, fun e => (h1 e).1, h2, fun e => (h1 e).2, rfl⟩

theorem execRdTimCtrl_next {s t : State} : exec .rdTimCtrl s = .next t ↔
    s.timClkEn = true ∧ t = s.setReadData (twoFlagsData s.cen s.chen) := by
  simp only [exec, execRdTimCtrl, requireTimerClock_eq_next, answer_eq_next]

theorem execWrTimChcfg_next {v : Word} {s t : State} : exec (.wrTimChcfg v) s = .next t ↔
    s.timClkEn = true ∧ s.cen = false ∧ ∃ m f, chcfgOfData v = some (m, f) ∧ t = s.setChcfg m f := by
  simp only [exec, execWrTimChcfg, requireTimerClock_eq_next, demand_eq_next, require_eq_next, Host.Outcome.next.injEq]
  constructor
  · rintro ⟨h, ⟨m, f⟩, hv, hc, rfl⟩; exact ⟨h, hc, m, f, hv, rfl⟩
  · rintro ⟨h, hc, m, f, hv, rfl⟩; exact ⟨h, (m, f), hv, hc, rfl⟩

theorem execRdTimChcfg_next {s t : State} : exec .rdTimChcfg s = .next t ↔
    s.timClkEn = true ∧ t = s.setReadData (chcfgData s.ocMode s.fastEn) := by
  simp only [exec, execRdTimChcfg, requireTimerClock_eq_next, answer_eq_next]

theorem execWrTimPsc_next {v : Word} {s t : State} : exec (.wrTimPsc v) s = .next t ↔
    s.timClkEn = true ∧ s.cen = false ∧ v.extractLsb' 16 16 = 0#16 ∧ t = s.setPsc (v.extractLsb' 0 16) := by
  simp only [exec, execWrTimPsc, requireTimerClock_eq_next, demand_eq_next, pscOfData_eq_some, require_eq_next,
    Host.Outcome.next.injEq]
  constructor
  · rintro ⟨h, p, ⟨hv, rfl⟩, hc, rfl⟩; exact ⟨h, hc, hv, rfl⟩
  · rintro ⟨h, hc, hv, rfl⟩; exact ⟨h, _, ⟨hv, rfl⟩, hc, rfl⟩

theorem execRdTimPsc_next {s t : State} : exec .rdTimPsc s = .next t ↔
    s.timClkEn = true ∧ ∃ p, s.psc = some p ∧ t = s.setReadData (p.setWidth 32) := by
  simp only [exec, execRdTimPsc, requireTimerClock_eq_next, demand_eq_next, answer_eq_next]

theorem execWrTimArr_next {v : Word} {s t : State} : exec (.wrTimArr v) s = .next t ↔
    s.timClkEn = true ∧ s.cen = false ∧ t = s.setArr v := by
  simp only [exec, execWrTimArr, requireTimerClock_eq_next, require_eq_next, Host.Outcome.next.injEq, eq_comm (a := t)]

theorem execRdTimArr_next {s t : State} : exec .rdTimArr s = .next t ↔
    s.timClkEn = true ∧ ∃ a, s.arr = some a ∧ t = s.setReadData a := by
  simp only [exec, execRdTimArr, requireTimerClock_eq_next, demand_eq_next, answer_eq_next]

theorem execWrTimCcr_next {v : Word} {s t : State} : exec (.wrTimCcr v) s = .next t ↔
    s.timClkEn = true ∧ t = if s.loadsAtOnce then (s.setCcrPre v).setCcrAct v else s.setCcrPre v := by
  simp only [exec, execWrTimCcr, requireTimerClock_eq_next, Host.Outcome.next.injEq, eq_comm (a := t)]

theorem execRdTimCcr_next {s t : State} : exec .rdTimCcr s = .next t ↔
    s.timClkEn = true ∧ ∃ c, s.ccrPre = some c ∧ t = s.setReadData c := by
  simp only [exec, execRdTimCcr, requireTimerClock_eq_next, demand_eq_next, answer_eq_next]

theorem execRdTimCnt_next {s t : State} : exec .rdTimCnt s = .next t ↔
    s.timClkEn = true ∧ t = s.setReadData s.cnt := by
  simp only [exec, execRdTimCnt, requireTimerClock_eq_next, answer_eq_next]

theorem execWrTimCnt_ne_next (v : Word) (s t : State) : exec (.wrTimCnt v) s ≠ .next t := by
  simp only [exec, execWrTimCnt, ne_eq, requireTimerClock_eq_next, reduceCtorEq, and_false, not_false_eq_true]

theorem execWrPincfg_next {n : Nat} {v : Word} {s t : State} : exec (.wrPincfg n v) s = .next t ↔
    n < Config.npins ∧ s.gpioClkEn = true ∧ ∃ c, pinOfData v = some c ∧ t = s.setPin n c := by
  simp only [exec, execWrPincfg, requirePin_eq_next, demand_eq_next, Host.Outcome.next.injEq, eq_comm (a := t)]

theorem execRdPincfg_next {n : Nat} {s t : State} : exec (.rdPincfg n) s = .next t ↔
    n < Config.npins ∧ s.gpioClkEn = true ∧ t = s.setReadData (pinData (s.pin n)) := by
  simp only [exec, execRdPincfg, requirePin_eq_next, answer_eq_next]

/-- Everything a step that answers a next state can do: no fault was recorded, and the next input was none or a TICK, a
reset, or a word that decoded to an instruction that completed. -/
theorem step_next_cases {s t : State} (h : step s = .next t) : s.faultRecord = none ∧
    ((∃ rest, (s.inputs = [] ∧ rest = [] ∨ s.inputs = .tick :: rest) ∧ t = tick (s.advance rest)) ∨
     (∃ rest, s.inputs = .reset :: rest ∧ t = (s.advance rest).resetStep) ∨
     (∃ w rest i, s.inputs = .txn w :: rest ∧ decode w = .ok i ∧ exec i (s.advance rest) = .next t)) := by
  unfold step at h
  cases hf : s.faultRecord with
  | some f => simp [hf] at h
  | none =>
    refine ⟨rfl, ?_⟩
    simp only [hf] at h
    split at h
    · next e => exact .inl ⟨[], .inl ⟨e, rfl⟩, (Host.Outcome.next.inj h).symm⟩
    · next rest e => exact .inl ⟨rest, .inr e, (Host.Outcome.next.inj h).symm⟩
    · next rest e => exact .inr (.inl ⟨rest, e, (Host.Outcome.next.inj h).symm⟩)
    · simp at h
    · simp at h
    · next w rest e =>
      split at h
      · simp at h
      · next i hd => exact .inr (.inr ⟨w, rest, i, e, hd, h⟩)

end Sys2Proof.Machine
end

