-- ==== Sys2Proof/Laws/Program.lean ====
section
/-! SUPPORT. What each piece of a program can do, said once: the operators on numbers, the step that issues a line, and what
happens up to the first transaction of a run. -/

namespace Sys2Proof.Machine

/-! ### Values -/

/-- On numbers from 0 up a bit operator is that of the numbers. -/
@[simp] theorem bitOp_ofNat (f : Nat → Nat → Nat) (free : Int → Int → Int) (a b : Nat) :
    bitOp f free (a : Int) (b : Int) = (f a b : Int) := by simp [bitOp]

/-- A number of 32 bits is the data word. -/
theorem dataOf_ofNat {n : Nat} (h : n < 2 ^ 32) : dataOf (n : Int) = BitVec.ofNat 32 n := by
  simp only [dataOf, Int.toNat_natCast]
  rw [if_pos ⟨by omega, by exact_mod_cast h⟩]

/-- A number from 0 up is the index. -/
@[simp] theorem indexOf_ofNat (n : Nat) : indexOf (n : Int) = n := by simp [indexOf]

/-- A bound name stands for what it was bound to. -/
@[simp] theorem Env.bind_self (e : Env) (x : String) (v : Int) : e.bind x v x = v := if_pos rfl

/-! ### Steps -/

/-- The state `s` with other inputs to come and another step count: what a step leaves of the model's own fields. -/
def State.at (s : State) (rest : List Input) (n : Nat) : State := { s with inputs := rest, steps := n }

@[simp] theorem State.at_at (s : State) (r r' : List Input) (n n' : Nat) : (s.at r n).at r' n' = s.at r' n' := rfl

/-- The step of a transaction word that decodes. -/
theorem step_txn {s : State} {w : TxnWord} {rest : List Input} {i : Instr} (hf : s.faultRecord = none)
    (hi : s.inputs = .txn w :: rest) (hd : decode w = .ok i) : step s = exec i (s.advance rest) := by
  simp only [step, hf, hi, hd]

/-- A TICK neither sees nor changes the inputs and the step count. -/
theorem tick_at (s : State) (rest : List Input) (n : Nat) : tick (s.at rest n) = (tick s).at rest n := by
  have hc : (s.at rest n).counting = s.counting := rfl
  have hp : (s.at rest n).prescalerDone = s.prescalerDone := rfl
  have ha : (s.at rest n).atTop = s.atTop := rfl
  simp only [tick, hc, hp, ha]
  split <;> [skip; rfl]
  split <;> [skip; rfl]
  split <;> rfl

/-- The step of a TICK. -/
theorem step_tick {s : State} {rest : List Input} (hf : s.faultRecord = none) (hi : s.inputs = .tick :: rest) :
    step s = .next ((tick s).at rest (s.steps + 1)) := by
  rw [← tick_at]; simp only [step, hf, hi]; rfl

/-- A TICK records no fault. -/
theorem tick_faultRecord (s : State) : (tick s).faultRecord = s.faultRecord := by
  obtain ⟨p, c, d, e⟩ := tick_frame s
  rw [e]

/-- A run of TICKs neither sees nor changes the inputs and the step count. -/
theorem ticks_at (k : Nat) (s : State) (rest : List Input) (n : Nat) : ticks k (s.at rest n) = (ticks k s).at rest n := by
  induction k with
  | zero => rfl
  | succ k ih => rw [ticks_succ, ih, tick_at, ticks_succ]

/-! ### Runs -/

/-- Up to its first transaction a run only TICKs, at least as often as is owed; then the line's word is the next input,
and either it completes and the run goes on with the rest of the lines and the names it leaves, or it faults and the run is
over. -/
theorem Runs.first {e : Env} {owed : Nat} {l : Line} {ls : List Line} {s : State} {o : Result} {i : Instr}
    (h : Runs e owed (l :: ls) s o) (hf : s.faultRecord = none) (hl : l.instr e = some i) :
    ∃ b rest, owed ≤ b ∧ s.inputs = List.replicate b .tick ++ .txn (encode i) :: rest ∧
      ((∃ t, step ((ticks b s).at (.txn (encode i) :: rest) (s.steps + b)) = .next t ∧ Runs (l.bind t e) 0 ls t o) ∨
       (∃ f, step ((ticks b s).at (.txn (encode i) :: rest) (s.steps + b)) = .fault f ∧ o = .fault f)) := by
  generalize hls : l :: ls = lines at h
  induction h with
  | done => cases hls
  | @clock e owed lines s t rest o more hi hs h ih =>
    obtain rfl := Host.Outcome.next.inj ((step_tick hf hi).symm.trans hs)
    have hf' : ((tick s).at rest (s.steps + 1)).faultRecord = none := (tick_faultRecord s).trans hf
    obtain ⟨b, rest', hb, hin, hcase⟩ := ih hf' hl hls
    have hgo : ticks b (tick s) = ticks (b + 1) s := by rw [Nat.add_comm, ticks_add]; rfl
    simp only [State.at] at hin
    refine ⟨b + 1, rest', by omega, by rw [hi, hin]; rfl, ?_⟩
    rw [ticks_at, State.at_at, hgo] at hcase
    have hn : ((tick s).at rest (s.steps + 1)).steps + b = s.steps + (b + 1) := by simp only [State.at]; omega
    rwa [hn] at hcase
  | wait h => cases hls; cases hl
  | @op e l' i' ls' s t rest o hl' hi hs h =>
    cases hls
    obtain rfl : i = i' := Option.some.inj (hl.symm.trans hl')
    refine ⟨0, rest, Nat.le_refl _, hi, .inl ⟨t, ?_, h⟩⟩
    rw [ticks_zero, ← hi]; exact hs
  | @fault e l' i' ls' s rest f hl' hi hs =>
    cases hls
    obtain rfl : i = i' := Option.some.inj (hl.symm.trans hl')
    refine ⟨0, rest, Nat.le_refl _, hi, .inr ⟨f, ?_, rfl⟩⟩
    rw [ticks_zero, ← hi]; exact hs

/-- A run with no line left and nothing owed is done. -/
theorem Runs.of_nil {e : Env} {s : State} {o : Result} (h : Runs e 0 [] s o) : o = .next s := by
  cases h with
  | done => rfl
  | clock more => rcases more with h | h <;> [exact absurd h (Nat.lt_irrefl 0); exact absurd rfl h]

/-- A wait is over when its TICKs have passed. -/
theorem Runs.of_wait {e : Env} {k : Expr} {l : Line} {ls : List Line} {s : State} {o : Result} {i : Instr}
    (h : Runs e 0 (.wait k :: l :: ls) s o) (hf : s.faultRecord = none) (hl : l.instr e = some i) :
    ∃ b rest, (k.value e).toNat ≤ b ∧ s.inputs = List.replicate b .tick ++ .txn (encode i) :: rest := by
  generalize hls : Line.wait k :: l :: ls = lines at h
  generalize hw : 0 = owed at h
  induction h with
  | done => cases hls
  | @clock e owed lines s t rest o more hi hs h ih =>
    obtain rfl := Host.Outcome.next.inj ((step_tick hf hi).symm.trans hs)
    have hf' : ((tick s).at rest (s.steps + 1)).faultRecord = none := (tick_faultRecord s).trans hf
    obtain ⟨b, rest', hb, hin⟩ := ih hf' hl hls (by omega)
    simp only [State.at] at hin
    exact ⟨b + 1, rest', by omega, by rw [hi, hin]; rfl⟩
  | wait h =>
    cases hls
    obtain ⟨b, rest, hb, hin, -⟩ := h.first hf hl
    exact ⟨b, rest, hb, hin⟩
  | op hl' => cases hls; cases hl'
  | fault hl' => cases hls; cases hl'

/-- While the timer does not count, the TICKs before a transaction that completes leave only the step count behind, and the
run goes on from the state the transaction gives. -/
theorem Runs.next_of_idle {e : Env} {l : Line} {ls : List Line} {s t : State} {o : Result} {i : Instr}
    (h : Runs e 0 (l :: ls) s o) (hl : l.instr e = some i) (hf : s.faultRecord = none) (hc : s.counting = false)
    (hd : decode (encode i) = .ok i) (hx : ∀ rest n, exec i (s.at rest n) = .next (t.at rest n)) :
    ∃ rest n, Runs (l.bind t e) 0 ls (t.at rest n) o := by
  obtain ⟨b, rest, -, -, h⟩ := h.first hf hl
  have hs := step_txn (s := s.at (.txn (encode i) :: rest) (s.steps + b)) hf rfl hd
  rw [ticks_idle hc, hs] at h
  have hx' := hx rest (s.steps + b + 1)
  obtain ⟨u, hu, h⟩ | ⟨f, hu, -⟩ := h
  · obtain rfl : t.at rest (s.steps + b + 1) = u := Host.Outcome.next.inj (hx'.symm.trans hu)
    refine ⟨rest, s.steps + b + 1, ?_⟩
    have hb : l.bind (t.at rest (s.steps + b + 1)) e = l.bind t e := by cases l <;> rfl
    rwa [hb] at h
  · cases hx'.symm.trans hu

end Sys2Proof.Machine
end

