-- ==== Sys2Proof/Laws/Driver.lean ====
section
/-! SUPPORT. What the driver's pseudo-operations do when run, for every interleaving with TICKs: the state after boot
(70_reset_and_hazards.md R243). -/

namespace Sys2Proof.Machine

/-- The data word that `BIND_PWM_PIN` writes (30_encoding.md R93). -/
def bindData (af : BitVec 4) : Word := (af.setWidth 32 <<< 8) ||| 0b10#32

/-- The write of `BIND_PWM_PIN` (30_encoding.md R93). -/
theorem instr_bind_write (e : Env) (n : Nat) (af : BitVec 4) :
    (Line.wr (.pincfg (.num n)) (.or (.shl (.num af.toNat) (.num 8)) (.num 0b10))).instr e =
      some (.wrPincfg n (bindData af)) := by
  have h : ∀ a : BitVec 4, dataOf ((a.toNat <<< 8 ||| 0b10 : Nat) : Int) = bindData a := by decide
  simp only [Line.instr, RegName.reg, Reg.write, Expr.value, indexOf_ofNat, bitOp_ofNat, h]

/-- It is the document's binding (41_pin_mux.md, introduction). -/
theorem pinOfData_bindData (af : BitVec 4) :
    pinOfData (bindData af) = some ⟨.alternate, .pushPull, .noPull, .low, af⟩ := by
  revert af; decide

/-- The word of the binding decodes to it, for every pin and alternate function. -/
theorem decode_bind {n : Nat} (hn : n < Config.npins) (af : BitVec 4) :
    decode (encode (.wrPincfg n (bindData af))) = .ok (.wrPincfg n (bindData af)) := by
  have h : ∀ m : Fin Config.npins, ∀ a : BitVec 4,
      (match decode (encode (.wrPincfg m (bindData a))) with
       | .ok i => decide (i = .wrPincfg m (bindData a))
       | .error _ => false) = true := by decide
  have h' := h ⟨n, hn⟩ af
  split at h'
  · next i e => rw [e, of_decide_eq_true h']
  · cases h'

/-- The write of a `SETBITS` (30_encoding.md R91) has the value its read returned with the bits of `m` set. -/
theorem instr_setBits_write (r : RegName) (e : Env) (d : Word) (m : Nat) (hm : m < 2 ^ 32) :
    (Line.wr r (.or (.name "t") (.num m))).instr (e.bind "t" d.toNat) =
      some ((r.reg (e.bind "t" d.toNat)).write (d ||| BitVec.ofNat 32 m)) := by
  have h : d.toNat ||| m < 2 ^ 32 := Nat.or_lt_two_pow d.isLt hm
  have hb : BitVec.ofNat 32 (d.toNat ||| m) = d ||| BitVec.ofNat 32 m := by
    apply BitVec.eq_of_toNat_eq
    rw [BitVec.toNat_ofNat, Nat.mod_eq_of_lt h, BitVec.toNat_or, BitVec.toNat_ofNat, Nat.mod_eq_of_lt hm]
  simp only [Line.instr, Expr.value, Env.bind_self, bitOp_ofNat, dataOf_ofNat h, hb]

/-- The state R243 gives after `INIT 83, 19999, 1500`, `BIND_PWM_PIN n, af` and `START` from reset. -/
def bootState (n : Nat) (af : BitVec 4) : State := { State.reset with
  timClkEn := true, gpioClkEn := true, cen := true, chen := true, ocMode := .pwm, fastEn := false,
  psc := some 83#16, arr := some 19999#32, ccrPre := some 1500#32, ccrAct := some 1500#32,
  pins := State.reset.pins.setIfInBounds n ⟨.alternate, .pushPull, .noPull, .low, af⟩,
  readData := some 0x1#32 }

/-- Every run of the boot sequence from reset, whatever TICKs fall between its lines, ends in that state: no line faults, and
the two reads of `GATE` return what they return in it. -/
theorem boot_leaves_running_timer {n : Nat} (hn : n < Config.npins) (af : BitVec 4) {e : Env} {xs : List Input} {k : Nat}
    {o : Result} (h : Runs e 0 (initLines (.num 83) (.num 19999) (.num 1500) ++ bindPwmPinLines (.num n) (.num af.toNat) ++
      startLines) (State.reset.at xs k) o) : ∃ rest m, o = .next ((bootState n af).at rest m) := by
  simp only [initLines, bindPwmPinLines, startLines, setBitsLines, List.cons_append, List.nil_append] at h
  let s1 := State.reset.setReadData (twoFlagsData false false)
  obtain ⟨_, _, h⟩ := h.next_of_idle (i := .rdGate) (t := s1) rfl rfl rfl rfl (fun _ _ => rfl)
  let s2 := s1.setGate true false
  obtain ⟨_, _, h⟩ := h.next_of_idle (i := .wrGate 1#32) (t := s2) (instr_setBits_write _ _ _ _ (by decide))
    rfl rfl rfl (fun _ _ => rfl)
  let s3 := s2.setPsc 83#16
  obtain ⟨_, _, h⟩ := h.next_of_idle (i := .wrTimPsc 83#32) (t := s3) rfl rfl rfl rfl (fun _ _ => rfl)
  let s4 := s3.setArr 19999#32
  obtain ⟨_, _, h⟩ := h.next_of_idle (i := .wrTimArr 19999#32) (t := s4) rfl rfl rfl rfl (fun _ _ => rfl)
  let s5 := (s4.setCcrPre 1500#32).setCcrAct 1500#32
  obtain ⟨_, _, h⟩ := h.next_of_idle (i := .wrTimCcr 1500#32) (t := s5) rfl rfl rfl rfl (fun _ _ => rfl)
  let s6 := s5.setChcfg .pwm false
  obtain ⟨_, _, h⟩ := h.next_of_idle (i := .wrTimChcfg 1#32) (t := s6) rfl rfl rfl rfl (fun _ _ => rfl)
  let s7 := s6.setReadData (twoFlagsData true false)
  obtain ⟨_, _, h⟩ := h.next_of_idle (i := .rdGate) (t := s7) rfl rfl rfl rfl (fun _ _ => rfl)
  let s8 := s7.setGate true true
  obtain ⟨_, _, h⟩ := h.next_of_idle (i := .wrGate 3#32) (t := s8) (instr_setBits_write _ _ _ _ (by decide))
    rfl rfl rfl (fun _ _ => rfl)
  let s9 := s8.setPin n ⟨.alternate, .pushPull, .noPull, .low, af⟩
  obtain ⟨_, _, h⟩ := h.next_of_idle (i := .wrPincfg n (bindData af)) (t := s9) (instr_bind_write _ n af)
    rfl rfl (decode_bind hn af) (fun _ _ => execWrPincfg_next.2 ⟨hn, rfl, _, pinOfData_bindData af, rfl⟩)
  obtain ⟨rest, m, h⟩ := h.next_of_idle (i := .wrTimCtrl 3#32) (t := s9.setCtrl true true) rfl rfl rfl rfl
    (fun _ _ => rfl)
  exact ⟨rest, m, h.of_nil⟩

end Sys2Proof.Machine
end

