-- ==== Sys2Proof/Laws/PerInstr.lean ====
section
/-! SUPPORT. A statement about every instruction as data, one lemma per constructor: the top digit of its word says whether
it is a write or a read (30_encoding.md R70: "A legal word access has w[47:44] = 0x5 for a write and 0x4 for a read"). -/

namespace Sys2Proof.Laws.WordKind

/-- Every well-formed instruction's word has the kind digit of R70. -/
def Statement (i : Instr) : Prop :=
  i.WellFormed → (encode i).extractLsb' 44 4 = if i.writeData.isSome then 0x5#4 else 0x4#4

/-- A data word does not reach the kind digit. -/
theorem kind_or_data (m : TxnWord) (v : Word) : (m ||| dataBits v).extractLsb' 44 4 = m.extractLsb' 44 4 := by
  ext i hi
  simp only [dataBits, BitVec.getElem_extractLsb', BitVec.getLsbD_or, BitVec.getLsbD_setWidth]
  rw [BitVec.getLsbD_of_ge v (44 + i) (by omega)]
  simp

/-- A pin index of the bank does not reach the kind digit. -/
theorem kind_or_pin (m : TxnWord) {n : Nat} (h : n < Config.npins) :
    (m ||| pinBits n).extractLsb' 44 4 = m.extractLsb' 44 4 := by
  ext i hi
  simp only [pinBits, BitVec.getElem_extractLsb', BitVec.getLsbD_or, BitVec.getLsbD_shiftLeft, BitVec.getLsbD_ofNat]
  rw [Nat.testBit_lt_two_pow (Nat.lt_of_lt_of_le (Nat.lt_of_le_of_lt (Nat.min_le_left n 63) h) (by
    calc Config.npins ≤ 2 ^ 4 := by decide
      _ ≤ 2 ^ (44 + i - 34) := Nat.pow_le_pow_right (by decide) (by omega)))]
  simp

theorem wrGate (v : Word) : Statement (.wrGate v) := fun _ => by
  simp only [encode, kind_or_data, Instr.writeData, Option.isSome_some, if_true]; decide

theorem rdGate : Statement .rdGate := fun _ => by decide

theorem wrTimCtrl (v : Word) : Statement (.wrTimCtrl v) := fun _ => by
  simp only [encode, kind_or_data, Instr.writeData, Option.isSome_some, if_true]; decide

theorem rdTimCtrl : Statement .rdTimCtrl := fun _ => by decide

theorem wrTimChcfg (v : Word) : Statement (.wrTimChcfg v) := fun _ => by
  simp only [encode, kind_or_data, Instr.writeData, Option.isSome_some, if_true]; decide

theorem rdTimChcfg : Statement .rdTimChcfg := fun _ => by decide

theorem wrTimPsc (v : Word) : Statement (.wrTimPsc v) := fun _ => by
  simp only [encode, kind_or_data, Instr.writeData, Option.isSome_some, if_true]; decide

theorem rdTimPsc : Statement .rdTimPsc := fun _ => by decide

theorem wrTimArr (v : Word) : Statement (.wrTimArr v) := fun _ => by
  simp only [encode, kind_or_data, Instr.writeData, Option.isSome_some, if_true]; decide

theorem rdTimArr : Statement .rdTimArr := fun _ => by decide

theorem wrTimCcr (v : Word) : Statement (.wrTimCcr v) := fun _ => by
  simp only [encode, kind_or_data, Instr.writeData, Option.isSome_some, if_true]; decide

theorem rdTimCcr : Statement .rdTimCcr := fun _ => by decide

theorem rdTimCnt : Statement .rdTimCnt := fun _ => by decide

theorem wrTimCnt (v : Word) : Statement (.wrTimCnt v) := fun _ => by
  simp only [encode, kind_or_data, Instr.writeData, Option.isSome_some, if_true]; decide

theorem wrPincfg (n : Nat) (v : Word) : Statement (.wrPincfg n v) := fun h => by
  have hn : n < Config.npins := of_decide_eq_true h
  simp only [encode, kind_or_data, kind_or_pin _ hn, Instr.writeData, Option.isSome_some, if_true]; decide

theorem rdPincfg (n : Nat) : Statement (.rdPincfg n) := fun h => by
  have hn : n < Config.npins := of_decide_eq_true h
  simp only [encode, kind_or_pin _ hn, Instr.writeData, Option.isSome_none, Bool.false_eq_true, if_false]; decide

end Sys2Proof.Laws.WordKind
end

