-- ==== Sys2Proof/Tests/Slice0.lean ====
section
/-! SUPPORT. The model's own tests, each with the vector or rule of spec/ its expected result comes from, the smoke test of
the well-formedness check, and for every obligation with hypotheses a witness that meets them. -/

namespace Sys2Proof.Tests

open Sys2Proof.Machine

/-! ### Helpers -/

/-- The outcome is a next state with a property. -/
def nextHas (o : Result) (p : State → Bool) : Bool :=
  match o with
  | .next t => p t
  | .fault _ => false
  | .refused _ => false

/-- The outcome is this fault. -/
def faultIs (o : Result) (f : Fault) : Bool :=
  match o with
  | .next _ => false
  | .fault g => decide (g = f)
  | .refused _ => false

/-- The decoder rejects the word with this name. -/
def rejects (w : TxnWord) (r : Reject) : Bool :=
  match decode w with
  | .ok _ => false
  | .error r' => decide (r' = r)

/-- The state after a next outcome, else reset. -/
def got (o : Result) : State :=
  match o with
  | .next t => t
  | .fault _ => State.reset
  | .refused _ => State.reset

/-- Reset with both gates on: `GATE = 0x3`. -/
def on : State := { State.reset with timClkEn := true, gpioClkEn := true }

/-- Both gates on, PWM mode, and the three timer registers written: `PSC = 1, ARR = 4, CCR = c`. -/
def ready (c : Word) : State := { on with ocMode := .pwm, psc := some 1#16, arr := some 4#32, ccrPre := some c, ccrAct := some c }

/-- `ready` counting with the channel on. -/
def running (c : Word) : State := { ready c with cen := true, chen := true }

/-- `running` at the last TICK of a frame: the next TICK is the update event. -/
def lastTick (c d : Word) : State := { running c with ccrPre := some d, cnt := 4#32, pcnt := 1#16 }

/-- `on` with a pin on another alternate function than the timer's. -/
def otherPin : State := on.setPin 6 ⟨.alternate, .pushPull, .noPull, .low, ~~~ Config.timAf⟩

/-! ### Well-formedness smoke -/

/-- 30_encoding.md R71: a pin index is valid when `n < NPINS`. -/
theorem test_wellFormed_refuses_pin_16 :
    (Instr.wrPincfg 16 0x102#32).wellFormed = false ∧ (Instr.rdPincfg 16).wellFormed = false := by decide

theorem test_wellFormed_accepts_pin_15 :
    (Instr.wrPincfg 15 0x102#32).wellFormed = true ∧ (Instr.rdPincfg 15).wellFormed = true := by decide

/-! ### Decode: words written out from 95_test_vectors.md §2.1, §2.2 and the examples of the rules -/

/-- 40 R100, R102 examples. -/
theorem test_decode_gate : decodeTableWord 48 0x500000000001 = some (.wrGate 1#32) ∧
    decodeTableWord 48 0x400000000000 = some .rdGate := by decide

/-- T-DEC-22; 42 R133. -/
theorem test_decode_ctrl : decodeTableWord 48 0x501000000003 = some (.wrTimCtrl 3#32) ∧
    decodeTableWord 48 0x401000000000 = some .rdTimCtrl := by decide

/-- 42 R134, R135. -/
theorem test_decode_chcfg : decodeTableWord 48 0x501400000001 = some (.wrTimChcfg 1#32) ∧
    decodeTableWord 48 0x401400000000 = some .rdTimChcfg := by decide

/-- T-DEC-1, T-DEC-2. -/
theorem test_decode_psc : decodeTableWord 48 0x501800000053 = some (.wrTimPsc 83#32) ∧
    decodeTableWord 48 0x401800000000 = some .rdTimPsc := by decide

/-- 42 R138, R139. -/
theorem test_decode_arr : decodeTableWord 48 0x501C00004E1F = some (.wrTimArr 19999#32) ∧
    decodeTableWord 48 0x401C00000000 = some .rdTimArr := by decide

/-- 42 R140, R142; 95 W1. -/
theorem test_decode_ccr : decodeTableWord 48 0x5020000005DC = some (.wrTimCcr 1500#32) ∧
    decodeTableWord 48 0x402000000000 = some .rdTimCcr := by decide

/-- T-DEC-20, T-DEC-21. -/
theorem test_decode_cnt : decodeTableWord 48 0x402400000000 = some .rdTimCnt ∧
    decodeTableWord 48 0x502400000000 = some (.wrTimCnt 0#32) := by decide

/-- T-DEC-17, T-DEC-18, T-DEC-19; 41 R111 example. -/
theorem test_decode_pincfg : decodeTableWord 48 0x510000000000 = some (.wrPincfg 0 0#32) ∧
    decodeTableWord 48 0x413C00000000 = some (.rdPincfg 15) ∧
    decodeTableWord 48 0x511400000102 = some (.wrPincfg 5 0x102#32) ∧
    decodeTableWord 48 0x411400000000 = some (.rdPincfg 5) := by decide

/-- T-DEC-3, T-DEC-4, T-DEC-5. -/
theorem test_decode_encoding : rejects 0x401800000001#48 .encoding = true ∧ rejects 0xD01800000053#48 .encoding = true ∧
    rejects 0xB01800000053#48 .encoding = true := by decide

/-- T-DEC-6 to T-DEC-9. -/
theorem test_decode_width : rejects 0x101800000053#48 .width = true ∧ rejects 0x301800000053#48 .width = true ∧
    rejects 0x701800000053#48 .width = true ∧ rejects 0x301900000053#48 .width = true := by decide

/-- T-DEC-10, T-DEC-11. -/
theorem test_decode_align : rejects 0x501900000053#48 .align = true ∧ rejects 0x401E00000000#48 .align = true := by decide

/-- T-DEC-12 to T-DEC-16, T-DEC-23. -/
theorem test_decode_unmapped : rejects 0x500400000000#48 .unmapped = true ∧ rejects 0x402800000000#48 .unmapped = true ∧
    rejects 0x40FC00000000#48 .unmapped = true ∧ rejects 0x514000000000#48 .unmapped = true ∧
    rejects 0x5FFC00000000#48 .unmapped = true ∧ rejects 0x400400000000#48 .unmapped = true := by decide

/-- The encodings of 95_test_vectors.md P1, lines 2 to 10. -/
theorem test_encode : encode (.wrGate 3#32) = 0x500000000003#48 ∧ encode (.wrTimArr 19999#32) = 0x501C00004E1F#48 ∧
    encode (.wrPincfg 5 0x102#32) = 0x511400000102#48 ∧ encode .rdTimCnt = 0x402400000000#48 := by decide

/-- 30_encoding.md R77: a pin index outside the bank is unmapped, at the first such index and where `n << 34` would give the
word of pin 0. -/
theorem test_encode_pin_outside_bank :
    rejects (encode (.rdPincfg 16)) .unmapped = true ∧ rejects (encode (.wrPincfg 64 0x102#32)) .unmapped = true ∧
    rejects (encode (.wrPincfg (2 ^ 14) 0x102#32)) .unmapped = true := by decide

/-- 30_encoding.md R77: the rows do not overlap, on the rows' own patterns. -/
theorem test_rows_do_not_match_each_other :
    opcodeTable.Pairwise (fun a b => a.matches b.pattern = false ∧ b.matches a.pattern = false) := by decide

/-! ### Transactions -/

/-- T-GATE-2. -/
theorem test_wrGate_sets_both : nextHas (exec (.wrGate 3#32) State.reset) (fun t => t.timClkEn && t.gpioClkEn) = true := by
  decide

/-- T-GATE-10: F7 comes before F9. -/
theorem test_wrGate_reserved_first : faultIs (exec (.wrGate 4#32) on) (.reserved 0x500000000004#48) = true := by decide

/-- T-GATE-6, with only the timer gate on. -/
theorem test_wrGate_clear_faults :
    faultIs (exec (.wrGate 2#32) { State.reset with timClkEn := true }) (.gateClear 0x500000000002#48) = true := by decide

/-- 40 R102: `{GPIOCLKEN, TIMCLKEN}`, the timer gate in bit 0. -/
theorem test_rdGate_order :
    nextHas (exec .rdGate { State.reset with gpioClkEn := true }) (fun t => t.readData == some 2#32) = true := by decide

/-- T-TIM-18: routing needs only ARR and CCR_pre. -/
theorem test_wrTimCtrl_routes_without_psc :
    nextHas (exec (.wrTimCtrl 2#32) { ready 2#32 with psc := none }) (fun t => t.chen && !t.cen) = true := by decide

/-- T-CNT-8a: F11 when `CNT > ARR`. -/
theorem test_wrTimCtrl_bad_start :
    faultIs (exec (.wrTimCtrl 3#32) { ready 1#32 with cnt := 5#32 }) (.badStart 0x501000000003#48) = true := by decide

/-- T-CNT-8d: F10 comes before F11. -/
theorem test_wrTimCtrl_unwritten_first :
    faultIs (exec (.wrTimCtrl 1#32) { ready 0#32 with psc := none, arr := some 0#32 }) (.unwritten 0x501000000001#48) = true := by
  decide

/-- 42 R133: `{CHEN, CEN}`. -/
theorem test_rdTimCtrl_order :
    nextHas (exec .rdTimCtrl { on with cen := true }) (fun t => t.readData == some 1#32) = true := by decide

/-- T-TIM-14. -/
theorem test_wrTimChcfg_fast :
    nextHas (exec (.wrTimChcfg 5#32) on) (fun t => t.ocMode == .pwm && t.fastEn) = true := by decide

/-- T-TIM-11. -/
theorem test_wrTimChcfg_reserved_mode : faultIs (exec (.wrTimChcfg 2#32) on) (.reserved 0x501400000002#48) = true := by
  decide

/-- T-TIM-14: reads `0x5`. -/
theorem test_rdTimChcfg :
    nextHas (exec .rdTimChcfg { on with ocMode := .pwm, fastEn := true }) (fun t => t.readData == some 5#32) = true := by
  decide

/-- T-TIM-6. -/
theorem test_wrTimPsc_max : nextHas (exec (.wrTimPsc 0xFFFF#32) on) (fun t => t.psc == some 65535#16) = true := by decide

/-- T-TIM-25: F7 comes before F8. -/
theorem test_wrTimPsc_reserved_first :
    faultIs (exec (.wrTimPsc 0x10000#32) (running 1#32)) (.reserved 0x501800010000#48) = true := by decide

/-- T-TIM-1. -/
theorem test_rdTimPsc_unwritten : faultIs (exec .rdTimPsc on) (.unwritten 0x401800000000#48) = true := by decide

/-- T-TIM-9. -/
theorem test_wrTimArr_zero : nextHas (exec (.wrTimArr 0#32) on) (fun t => t.arr == some 0#32) = true := by decide

/-- P5b. -/
theorem test_wrTimArr_locked :
    faultIs (exec (.wrTimArr 9999#32) (running 1#32)) (.locked 0x501C0000270F#48) = true := by decide

/-- 42 R139. -/
theorem test_rdTimArr : nextHas (exec .rdTimArr (ready 1#32)) (fun t => t.readData == some 4#32) = true := by decide

/-- T-TIM-28: the preload copy only. -/
theorem test_wrTimCcr_preload :
    nextHas (exec (.wrTimCcr 3#32) (running 1#32)) (fun t => t.ccrPre == some 3#32 && t.ccrAct == some 1#32) = true := by
  decide

/-- T-CMP-11: with `FASTEN = 1`, at once. -/
theorem test_wrTimCcr_fast : nextHas (exec (.wrTimCcr 4#32) { running 1#32 with fastEn := true })
    (fun t => t.ccrPre == some 4#32 && t.ccrAct == some 4#32) = true := by decide

/-- T-TIM-29: the value last written, not the one in force. -/
theorem test_rdTimCcr_preload :
    nextHas (exec .rdTimCcr (lastTick 1#32 3#32)) (fun t => t.readData == some 3#32) = true := by decide

/-- 42 R143. -/
theorem test_rdTimCnt : nextHas (exec .rdTimCnt (lastTick 1#32 3#32)) (fun t => t.readData == some 4#32) = true := by decide

/-- T-TIM-30. -/
theorem test_wrTimCnt_readonly : faultIs (exec (.wrTimCnt 5#32) (running 1#32)) (.readonly 0x502400000005#48) = true := by
  decide

/-- T-TIM-31: F5 comes before F6. -/
theorem test_wrTimCnt_gated :
    faultIs (exec (.wrTimCnt 5#32) { State.reset with gpioClkEn := true }) (.gated 0x502400000005#48) = true := by decide

/-- T-PIN-3 (fields), T-PIN-10 (another pin). -/
theorem test_wrPincfg_fields : nextHas (exec (.wrPincfg 5 0x16E#32) on)
    (fun t => t.pin 5 == ⟨.alternate, .openDrain, .up, .veryHigh, 1#4⟩ && t.pin 4 == PinCfg.reset) = true := by decide

/-- T-PIN-15: PULL = 11 is reserved. -/
theorem test_wrPincfg_reserved_pull : faultIs (exec (.wrPincfg 5 0x11A#32) on) (.reserved 0x51140000011A#48) = true := by
  decide

/-- T-PIN-3: reads `0x162`. -/
theorem test_rdPincfg : nextHas (exec (.rdPincfg 5) (on.setPin 5 ⟨.alternate, .pushPull, .noPull, .veryHigh, 1#4⟩))
    (fun t => t.readData == some 0x162#32) = true := by decide

/-- T-GATE-14. -/
theorem test_rdPincfg_gated :
    faultIs (exec (.rdPincfg 0) { State.reset with timClkEn := true }) (.gated 0x410000000000#48) = true := by decide

/-! ### TICK and signals -/

/-- T-CNT-2: the update event at `PCNT = PSC, CNT = ARR` loads the compare value. -/
theorem test_tick_update : (tick (lastTick 1#32 3#32)).cnt = 0#32 ∧ (tick (lastTick 1#32 3#32)).pcnt = 0#16 ∧
    (tick (lastTick 1#32 3#32)).ccrAct = some 3#32 := by decide

/-- T-CNT-2: `(1,0)` after the first TICK, `(0,1)` after the second. -/
theorem test_tick_prescales : (tick (running 1#32)).pcnt = 1#16 ∧ (tick (running 1#32)).cnt = 0#32 ∧
    (tick { running 1#32 with pcnt := 1#16 }).cnt = 1#32 := by decide

/-- T-CMP-4, T-CMP-5: `ARR - 1` is low at its value, `ARR` is constant high. -/
theorem test_tout_saturates_at_arr : tout { running 3#32 with cnt := 3#32 } = false ∧
    tout { running 4#32 with cnt := 4#32 } = true := by decide

/-- T-CMP-8: the channel gate. -/
theorem test_tout_gated : tout { running 2#32 with chen := false } = false ∧
    ocref { running 2#32 with chen := false } = true := by decide

/-- T-PIN-2, T-PIN-5, T-PIN-6: push-pull, open-drain with pull-up, open-drain with pull-down, at the example binding
`TIM_PIN = 5, TIM_AF = 1` (92_eei_decisions.md D31). -/
theorem test_pin_levels :
    pinLevelWith 5 1#4 .floating ((running 2#32).setPin 5 ⟨.alternate, .pushPull, .noPull, .low, 1#4⟩) 5 = .high ∧
    pinLevelWith 5 1#4 .floating ((running 0#32).setPin 5 ⟨.alternate, .openDrain, .up, .low, 1#4⟩) 5 = .low ∧
    pinLevelWith 5 1#4 .floating ((running 2#32).setPin 5 ⟨.alternate, .openDrain, .up, .low, 1#4⟩) 5 = .high ∧
    pinLevelWith 5 1#4 .floating ((running 2#32).setPin 5 ⟨.alternate, .openDrain, .down, .low, 1#4⟩) 5 = .low := by decide

/-- T-PIN-10, T-PIN-12: MODE = 00 shows the pull, whatever AF says. -/
theorem test_pin_input : pinLevelWith 5 1#4 .low (on.setPin 3 ⟨.input, .pushPull, .up, .low, 0#4⟩) 3 = .high ∧
    pinLevelWith 5 1#4 .low (on.setPin 5 ⟨.input, .pushPull, .noPull, .low, 1#4⟩) 5 = .floating := by decide

/-! ### Steps -/

/-- P5a line 2: F10 with its word, and the state it leaves. -/
theorem test_step_fault : faultIs (step ({ State.reset with timClkEn := true }.withFetchWord 48 0x501000000003))
    (.unwritten 0x501000000003#48) = true := by decide

/-- T-GATE-1 as a step from reset. -/
theorem test_step_runs_word :
    nextHas (step (State.reset.withFetchWord 48 0x500000000001)) (fun t => t.timClkEn && t.inputs.isEmpty) = true := by decide

/-- 70 R230: reset clears the gates and the counter. -/
theorem test_step_reset : nextHas (step { lastTick 1#32 3#32 with inputs := [.reset] })
    (fun t => !t.timClkEn && t.cnt == 0#32 && t.psc == none && t.ccrAct == none) = true := by decide

/-! ### Programs -/

/-- 30_encoding.md R80, R93: the value of `(1 << 8) | 0b10` (95_test_vectors.md P1 line 9), and exact arithmetic. -/
theorem test_expr_value : dataOf ((Expr.or (.shl (.num 1) (.num 8)) (.num 0b10)).value Env.params) = 0x102#32 ∧
    (Expr.sub (.mul (.num 3) (.num 4)) (.and (.num 6) (.num 3))).value Env.params = 10 := by decide

/-- A machine with the timer gate on that is about to run `SETBITS GATE, 0x2` (95_test_vectors.md P1 lines 7 and 8), with a
TICK between the two transactions. -/
def setBitsReady : State :=
  { State.reset with
    timClkEn := true, inputs := [.txn 0x400000000000#48, .tick, .txn 0x500000000003#48] }

/-- P1 lines 7 and 8: the write is `WR GATE, 0x3`, and both gates are on after it. -/
theorem test_setBits_keeps_timer_gate (e : Env) :
    ∃ t, Runs e 0 (setBitsLines .gate (.num 0x2)) setBitsReady (.next t) ∧ t.timClkEn = true ∧ t.gpioClkEn = true :=
  ⟨_, .op rfl rfl rfl (.clock (.inr (List.cons_ne_nil _ _)) rfl rfl
    (.op (instr_setBits_write .gate e 1#32 2 (by decide)) rfl rfl .done)), rfl, rfl⟩

/-- A machine about to run `RD GATE -> t`, `WAIT >= 2`, `RD GATE -> t`, with three TICKs between the two reads. -/
def waitReady : State :=
  { on with inputs := [.txn 0x400000000000#48, .tick, .tick, .tick, .txn 0x400000000000#48] }

/-- R252: three TICKs are enough for `WAIT >= 2`. -/
theorem test_wait_runs (e : Env) :
    ∃ t, Runs e 0 [.rd .gate "t", .wait (.num 2), .rd .gate "t"] waitReady (.next t) :=
  ⟨_, .op rfl rfl rfl (.wait (.clock (.inr (List.cons_ne_nil _ _)) rfl rfl (.clock (.inr (List.cons_ne_nil _ _)) rfl rfl
    (.clock (.inr (List.cons_ne_nil _ _)) rfl rfl (.op rfl rfl rfl .done)))))⟩

/-! ### Witnesses: states and operands that meet the hypotheses of the obligations -/

theorem witness_DecodeOfEncodeIsInstruction :
    (Instr.wrPincfg 15 0xFFFFFFFF#32).WellFormed ∧ ¬ (Instr.wrPincfg 16 0#32).WellFormed := by decide

theorem witness_EncodeOfDecodedWordIsWord : decode 0x513C00000102#48 = .ok (.wrPincfg 15 0x102#32) := rfl

theorem witness_OpcodeMapMatchesDecoder :
    (∃ r ∈ opcodeTable, r.matches 0x513C00000102#48 = true) ∧
    (∀ r ∈ opcodeTable, r.matches 0x514000000000#48 = false) ∧
    ¬ ((0x514000000000#48).getLsbD 47 = true ∨
      ((0x514000000000#48).getLsbD 44 = false ∧ (0x514000000000#48).extractLsb' 0 32 ≠ 0#32)) ∧
    (0x514000000000#48).extractLsb' 45 2 = 0b10#2 ∧ (0x514000000000#48).extractLsb' 32 2 = 0#2 ∧
    (Instr.wrPincfg 15 0x102#32).writeData = some 0x102#32 ∧ (Instr.wrPincfg 15 0x102#32).reg = .pincfg 15 := by decide

theorem witness_BusAccessIsOneTransaction :
    lookup 0x000#12 = some .gate ∧ lookup 0x13C#12 = some (.pincfg 15) ∧
    Config.pwmtBase + 4096 ≤ Config.pwmtBase + 4096 := ⟨by decide, by decide, Nat.le_refl _⟩

/-- One value for each clause: reserved bit, clearing write, accepted write. -/
theorem witness_WriteGateSetsBothGates :
    (4#32 : Word).extractLsb' 2 30 ≠ 0#30 ∧
    ((1#32 : Word).extractLsb' 2 30 = 0#30 ∧ on.gpioClkEn = true ∧ (1#32 : Word).getLsbD 1 = false) ∧
    ((3#32 : Word).extractLsb' 2 30 = 0#30 ∧ (on.timClkEn = true → (3#32 : Word).getLsbD 0 = true) ∧
      (on.gpioClkEn = true → (3#32 : Word).getLsbD 1 = true)) := by decide

theorem witness_SetGatesStaySetUntilReset :
    ((0#32 : Word).extractLsb' 2 30 = 0#30 ∧ on.timClkEn = true ∧ (0#32 : Word).getLsbD 0 = false) ∧
    (∃ t, step on = .next t ∧ (∀ rest, on.inputs ≠ .reset :: rest) ∧ on.timClkEn = true ∧ on.gpioClkEn = true) ∧
    (on.faultRecord = none ∧ { on with inputs := [.reset] }.inputs = .reset :: []) :=
  ⟨by decide, ⟨_, rfl, by simp [on, State.reset], rfl, rfl⟩, by decide⟩

theorem witness_GatedAccessFaults :
    ((Instr.wrTimCnt 0#32).reg.isTimer = true ∧ State.reset.timClkEn = false) ∧
    ((Instr.rdPincfg 15).reg = .pincfg 15 ∧ 15 < Config.npins ∧ State.reset.gpioClkEn = false) := by decide

/-- One value for each clause: index past the bank, gate off, each reserved part, accepted at the last pin. -/
theorem witness_WritePincfgStoresFields :
    Config.npins ≤ 16 ∧ (15 < Config.npins ∧ State.reset.gpioClkEn = false) ∧
    (on.gpioClkEn = true ∧ (0x1102#32 : Word).extractLsb' 12 20 ≠ 0#20 ∧ (0x182#32 : Word).getLsbD 7 = true ∧
      (0x101#32 : Word).extractLsb' 0 2 = 0b01#2 ∧ (0x103#32 : Word).extractLsb' 0 2 = 0b11#2 ∧
      (0x11A#32 : Word).extractLsb' 3 2 = 0b11#2) ∧
    ((0xF76#32 : Word).extractLsb' 12 20 = 0#20 ∧ (0xF76#32 : Word).getLsbD 7 = false ∧
      (0xF76#32 : Word).extractLsb' 0 2 = 0b10#2 ∧ (0xF76#32 : Word).extractLsb' 3 2 ≠ 0b11#2) := by decide

theorem witness_ReadPincfgReturnsFields :
    Config.npins ≤ 16 ∧ (15 < Config.npins ∧ State.reset.gpioClkEn = false) ∧ (15 < Config.npins ∧ on.gpioClkEn = true) := by
  decide

/-- The timer's pin, with the output low and high, push-pull and open-drain; and an input pin. -/
theorem witness_TimerPinFollowsOutput (o : PinOtype) :
    let c : PinCfg := ⟨.alternate, o, .up, .low, Config.timAf⟩
    let s := fun v => (running v).setPin Config.timPin.val c
    (on.pin 3).mode = .input ∧ ((s 2#32).pin Config.timPin.val) = c ∧ ((s 0#32).pin Config.timPin.val) = c ∧
    tout (s 2#32) = true ∧ tout (s 0#32) = false := by
  have h (v : Word) (c : PinCfg) : ((running v).setPin Config.timPin.val c).pin Config.timPin.val = c := by
    simp only [State.pin, State.setPin]
    rw [Vector.getElem?_setIfInBounds_self_of_lt Config.timPin.isLt]
    rfl
  exact ⟨by decide, h _ _, h _ _, rfl, rfl⟩

theorem witness_OtherFunctionPinIsFree : (otherPin.pin 6).mode = .alternate ∧
    ¬ (6 = Config.timPin.val ∧ (otherPin.pin 6).af = Config.timAf) := by
  refine ⟨rfl, fun h => ?_⟩
  have e : ~~~ Config.timAf = Config.timAf := h.2
  have := congrArg (fun b : BitVec 4 => b.getLsbD 0) e
  simp at this

theorem witness_SpeedNeverChangesLevel : 15 < Config.npins ∧ on.gpioClkEn = true := by decide

theorem witness_PinAndTimerSetupCommute :
    (Instr.wrTimPsc 83#32).reg.isTimer = true ∧
    ∃ t u, exec (.wrPincfg 15 0x102#32) on = .next t ∧ exec (.wrTimPsc 83#32) t = .next u := ⟨rfl, _, _, rfl, rfl⟩

/-- One state for each clause: gate off, reserved bit, start and route too early, degenerate start, accepted. -/
theorem witness_WriteTimCtrlStartsAndRoutes :
    State.reset.timClkEn = false ∧ (on.timClkEn = true ∧ (4#32 : Word).extractLsb' 2 30 ≠ 0#30) ∧
    (on.cen = false ∧ (1#32 : Word).getLsbD 0 = true ∧ on.psc = none) ∧
    (on.chen = false ∧ (2#32 : Word).getLsbD 1 = true ∧ on.arr = none) ∧
    (let s := { ready 1#32 with cnt := 5#32 }
     s.timClkEn = true ∧ (3#32 : Word).extractLsb' 2 30 = 0#30 ∧ s.cen = false ∧ s.arr = some 4#32 ∧ s.psc = some 1#16 ∧
      s.ccrPre = some 1#32 ∧ (4#32 : Word).toNat < s.cnt.toNat) ∧
    (let s := { ready 1#32 with cnt := 4#32, pcnt := 1#16 }
     s.timClkEn = true ∧ s.arr = some 4#32 ∧ s.psc = some 1#16 ∧ s.ccrPre = some 1#32 ∧
      ¬ ((4#32 : Word).toNat = 0 ∨ (4#32 : Word).toNat < s.cnt.toNat ∨ (1#16 : Half).toNat < s.pcnt.toNat)) := by decide

theorem witness_ReadTimCtrlReturnsEnables : State.reset.timClkEn = false ∧ on.timClkEn = true := by decide

theorem witness_WriteTimChcfgSetsMode :
    State.reset.timClkEn = false ∧ (on.timClkEn = true ∧ (8#32 : Word).extractLsb' 3 29 ≠ 0#29) ∧
    (2#32 : Word).getLsbD 1 = true ∧
    ((running 1#32).timClkEn = true ∧ (running 1#32).cen = true ∧ on.cen = false ∧ (5#32 : Word).extractLsb' 3 29 = 0#29 ∧
      (5#32 : Word).getLsbD 1 = false) := by decide

theorem witness_ReadTimChcfgReturnsMode : State.reset.timClkEn = false ∧ on.timClkEn = true := by decide

theorem witness_WriteTimPscSetsPrescaler :
    State.reset.timClkEn = false ∧ (on.timClkEn = true ∧ (0x10000#32 : Word).extractLsb' 16 16 ≠ 0#16) ∧
    ((running 1#32).timClkEn = true ∧ (running 1#32).cen = true ∧ on.cen = false ∧
      (0xFFFF#32 : Word).extractLsb' 16 16 = 0#16) := by decide

theorem witness_ReadTimPscReturnsPrescaler :
    State.reset.timClkEn = false ∧ (on.timClkEn = true ∧ on.psc = none) ∧
    ((ready 1#32).timClkEn = true ∧ (ready 1#32).psc = some 1#16) := by decide

theorem witness_WriteTimArrSetsPeriod :
    State.reset.timClkEn = false ∧ ((running 1#32).timClkEn = true ∧ (running 1#32).cen = true) ∧
    (on.timClkEn = true ∧ on.cen = false) := by decide

theorem witness_ReadTimArrReturnsPeriod :
    State.reset.timClkEn = false ∧ (on.timClkEn = true ∧ on.arr = none) ∧
    ((ready 1#32).timClkEn = true ∧ (ready 1#32).arr = some 4#32) := by decide

theorem witness_WriteTimCcrSetsDuty :
    State.reset.timClkEn = false ∧ (on.timClkEn = true ∧ on.cen = false) ∧
    ({ running 1#32 with fastEn := true }.timClkEn = true ∧ { running 1#32 with fastEn := true }.fastEn = true) ∧
    ((running 1#32).timClkEn = true ∧ (running 1#32).cen = true ∧ (running 1#32).fastEn = false) := by decide

theorem witness_ReadTimCcrReturnsPreload :
    State.reset.timClkEn = false ∧ (on.timClkEn = true ∧ on.ccrPre = none) ∧
    ((ready 1#32).timClkEn = true ∧ (ready 1#32).ccrPre = some 1#32) := by decide

theorem witness_WriteTimCntAlwaysFaults : State.reset.timClkEn = false ∧ on.timClkEn = true := by decide

theorem witness_ConfigurationLockedWhileCounting :
    (running 1#32).cen = true ∧ ∃ t, exec (.wrTimCcr 3#32) (running 1#32) = .next t := ⟨rfl, _, rfl⟩

theorem witness_ReadReturnsLastWrittenValue :
    (Instr.wrPincfg 15 0xF76#32).writeData = some 0xF76#32 ∧ ∃ t, exec (.wrPincfg 15 0xF76#32) on = .next t := ⟨rfl, _, rfl⟩

theorem witness_ReadsChangeNoState :
    Instr.rdTimCnt.writeData = none ∧ ∃ t, exec .rdTimCnt (running 1#32) = .next t := ⟨rfl, _, rfl⟩

theorem witness_WritesAreIdempotent :
    (Instr.wrTimCtrl 3#32).writeData = some 3#32 ∧ ∃ t, exec (.wrTimCtrl 3#32) (ready 1#32) = .next t := ⟨rfl, _, rfl⟩

theorem witness_TransactionsTouchOnlyTheirRegister :
    (∃ t, exec (.wrTimCcr 3#32) (running 1#32) = .next t) ∧ (Instr.wrTimCcr 3#32).reg ≠ .gate ∧
    (Instr.wrTimCcr 3#32).reg ≠ .timCtrl ∧ (Instr.wrTimCcr 3#32).reg ≠ .pincfg 15 ∧
    (Instr.wrTimCcr 3#32).writeData.isSome = true ∧
    (∃ t, exec (.wrPincfg 15 0x102#32) on = .next t) ∧ (Instr.wrPincfg 15 0x102#32).reg ≠ .timCcr ∧
    (Instr.wrPincfg 15 0x102#32).reg ≠ .pincfg 14 := ⟨⟨_, rfl⟩, by decide, by decide, by decide, rfl, ⟨_, rfl⟩, by decide, by decide⟩

/-- One state for each clause of the TICK. -/
theorem witness_TickCountsAndReloads :
    on.cen = false ∧
    ((running 1#32).timClkEn = true ∧ (running 1#32).cen = true ∧ (running 1#32).psc ≠ some (running 1#32).pcnt) ∧
    (let s := { running 1#32 with pcnt := 1#16, cnt := 3#32 }
     s.timClkEn = true ∧ s.cen = true ∧ s.psc = some s.pcnt ∧ s.arr ≠ some s.cnt) ∧
    (let s := lastTick 1#32 3#32
     s.timClkEn = true ∧ s.cen = true ∧ s.psc = some s.pcnt ∧ s.arr = some s.cnt) := by decide

theorem witness_inv_running (c : Word) : (running c).Inv where
  counting := fun _ => ⟨rfl, 1#16, 4#32, c, c, rfl, rfl, rfl, rfl, by decide, Nat.zero_le _, Nat.zero_le _⟩
  channel := fun _ => ⟨rfl, rfl⟩
  copies := rfl

theorem witness_ReadTimCntReturnsCounter :
    State.reset.timClkEn = false ∧ on.timClkEn = true ∧ (running 1#32).Inv ∧ (running 1#32).cen = true :=
  ⟨rfl, rfl, witness_inv_running _, rfl⟩

theorem witness_CountingNeverWraps : (running 1#32).Inv ∧ (running 1#32).counting = true := ⟨witness_inv_running _, rfl⟩

theorem witness_PrescalerDividesKernelClock :
    let s := { running 1#32 with cnt := 4#32 }
    s.counting = true ∧ s.psc = some 1#16 ∧ s.arr = some 4#32 ∧ 1 ≤ (4#32 : Word).toNat ∧
    s.cnt.toNat ≤ (4#32 : Word).toNat ∧ s.pcnt = 0#16 ∧ (1 : Nat) ≤ (1#16 : Half).toNat := by decide

theorem witness_atFrameStart (c : Word) : (running c).AtFrameStart 1#16 4#32 := ⟨rfl, rfl, rfl, rfl, rfl⟩

theorem witness_CounterFollowsPeriodLaw : (running 1#32).AtFrameStart 1#16 4#32 := witness_atFrameStart _

theorem witness_CompareLoadsAtFrameEnd : (running 1#32).AtFrameStart 1#16 4#32 := witness_atFrameStart _

theorem witness_PulseLengthIsDuty (c : Word) :
    (running c).AtFrameStart 1#16 4#32 ∧ 1 ≤ (4#32 : Word).toNat ∧ (running c).ocMode = .pwm ∧ (running c).chen = true ∧
    (running c).ccrAct = some c ∧ 0 < ((4#32 : Word).toNat + 1) * ((1#16 : Half).toNat + 1) :=
  ⟨witness_atFrameStart _, by decide, rfl, rfl, rfl, by decide⟩

theorem witness_OutputIsGatedComparison :
    State.reset.ocMode = .off ∧ State.reset.chen = false ∧ (running 1#32).ocMode = .pwm ∧ (running 1#32).chen = true ∧
    (running 1#32).arr = some 4#32 ∧ (running 1#32).ccrAct = some 1#32 := by decide

theorem witness_SaturatedDutyIsConstantHigh :
    let s := lastTick 4#32 5#32
    s.counting = true ∧ s.ocMode = .pwm ∧ s.chen = true ∧ s.arr = some 4#32 ∧ s.ccrAct = some 4#32 ∧
    s.ccrPre = some 5#32 ∧ (4#32 : Word).toNat ≤ (4#32 : Word).toNat ∧ (4#32 : Word).toNat ≤ (5#32 : Word).toNat := by decide

theorem witness_ZeroDutyIsConstantLow :
    (running 0#32).Inv ∧ (running 0#32).counting = true ∧ (running 0#32).ccrAct = some 0#32 ∧
    (running 0#32).ccrPre = some 0#32 := ⟨witness_inv_running _, rfl, rfl, rfl⟩

theorem witness_StopFreezesCounter :
    (2#32 : Word).getLsbD 0 = false ∧ ∃ t, exec (.wrTimCtrl 2#32) (lastTick 1#32 3#32) = .next t := ⟨by decide, _, rfl⟩

theorem witness_StartBeginsFirstFrame :
    (ready 1#32).cen = false ∧ (3#32 : Word).getLsbD 0 = true ∧ (ready 1#32).cnt = 0#32 ∧ (ready 1#32).pcnt = 0#16 ∧
    (ready 1#32).psc = some 1#16 ∧ (ready 1#32).arr = some 4#32 ∧ (∃ t, exec (.wrTimCtrl 3#32) (ready 1#32) = .next t) ∧
    0 + 1 < ((4#32 : Word).toNat + 1) * ((1#16 : Half).toNat + 1) ∧ (ready 1#32).ocMode = .pwm ∧
    (3#32 : Word).getLsbD 1 = true ∧ (ready 1#32).ccrAct = some 1#32 ∧ 0 < (1#32 : Word).toNat :=
  ⟨rfl, by decide, rfl, rfl, rfl, rfl, ⟨_, rfl⟩, by decide, rfl, by decide, rfl, by decide⟩

theorem witness_DutyWriteLandsWithinOneFrame :
    (running 1#32).Inv ∧ (running 1#32).counting = true ∧ (running 1#32).fastEn = false ∧ (running 1#32).arr = some 4#32 ∧
    (running 1#32).psc = some 1#16 ∧ ∃ t, exec (.wrTimCcr 3#32) (running 1#32) = .next t :=
  ⟨witness_inv_running _, rfl, rfl, rfl, rfl, _, rfl⟩

/-- T-CMP-13 with one TICK between the two writes, the second just before the update event. -/
theorem witness_LastDutyWriteInFrameWins :
    let s := { running 2#32 with cnt := 4#32 }
    s.counting = true ∧ s.fastEn = false ∧ (∀ j, j < 1 → (ticks j s).updateDue = false) ∧
    ∃ s₁ s₂, exec (.wrTimCcr 3#32) s = .next s₁ ∧ exec (.wrTimCcr 0#32) (ticks 1 s₁) = .next s₂ ∧ s₂.updateDue = true := by
  refine ⟨rfl, rfl, fun j h => ?_, _, _, rfl, rfl, rfl⟩
  obtain rfl : j = 0 := by omega
  rfl

theorem witness_StepRunsDecodedInstruction :
    on.faultRecord = none ∧ { on with inputs := [.txn 0x501800000053#48] }.inputs = .txn 0x501800000053#48 :: [] ∧
    decode 0x501800000053#48 = .ok (.wrTimPsc 83#32) := ⟨rfl, rfl, rfl⟩

theorem witness_StepTicksAndResets :
    on.faultRecord = none ∧ on.inputs = [] ∧ { on with inputs := [.tick] }.inputs = .tick :: [] ∧
    { on with inputs := [.reset] }.inputs = .reset :: [] := ⟨rfl, rfl, rfl, rfl⟩

theorem witness_FaultRecordsWordAndChangesNothing :
    let s := { on with inputs := [.txn 0x502400000005#48] }
    s.faultRecord = none ∧ s.inputs = .txn 0x502400000005#48 :: [] ∧ step s = .fault (.readonly 0x502400000005#48) :=
  ⟨rfl, rfl, rfl⟩

theorem witness_FaultedRunIsOver :
    (on.setFault (.gated 0#48)).faultRecord = some (.gated 0#48) ∧ ∃ t, step on = .next t := ⟨rfl, _, rfl⟩

theorem witness_RejectedWordStopsStep :
    on.faultRecord = none ∧ { on with inputs := [.txn 0x514000000000#48] }.inputs = .txn 0x514000000000#48 :: [] ∧
    decode 0xD01800000053#48 = .error .encoding ∧ decode 0x701800000053#48 = .error .width ∧
    decode 0x401E00000000#48 = .error .align ∧ decode 0x514000000000#48 = .error .unmapped :=
  ⟨rfl, rfl, rfl, rfl, rfl, rfl⟩

theorem witness_OnlyFetchAndCachedAccessRefused :
    { on with inputs := [.fetch 0x010#12] }.inputs = .fetch 0x010#12 :: [] ∧ on.faultRecord = none ∧
    step { on with inputs := [.fetch 0x010#12] } = .refused (.windowFetch 0x010#12) ∧
    step { on with inputs := [.cached 0x400000000000#48] } = .refused (.cachedAccess 0x400000000000#48) :=
  ⟨rfl, rfl, rfl, rfl⟩

theorem witness_SetBitsKeepsOtherGate (e : Env) :
    setBitsReady.faultRecord = none ∧ (∃ o, Runs e 0 (setBitsLines .gate (.num 2)) setBitsReady o) ∧
    (∃ o, Runs e 0 (setBitsLines .gate (.num 4))
      { on with inputs := [.txn 0x400000000000#48, .txn 0x500000000007#48] } o) :=
  ⟨rfl, (test_setBits_keeps_timer_gate e).imp' _ fun _ h => h.1,
    ⟨_, .op rfl rfl rfl (.fault (instr_setBits_write .gate e 3#32 4 (by decide)) rfl rfl)⟩⟩

theorem witness_WaitIsLowerBoundOnTicks (e : Env) :
    waitReady.faultRecord = none ∧ (Line.rd .gate "t").instr e = some .rdGate ∧
    (∃ more t, waitReady.inputs = .txn (encode .rdGate) :: more ∧ step waitReady = .next t) ∧
    (∃ o, Runs e 0 [.rd .gate "t", .wait (.num 2), .rd .gate "t"] waitReady o) ∧
    (let s := { on with inputs := List.replicate 3 .tick ++ [.txn (encode .rdGate)] }
     2 ≤ 3 ∧ s.faultRecord = none ∧ s.inputs = List.replicate 3 .tick ++ .txn (encode .rdGate) :: [] ∧
     ∃ t, step { ticks 3 s with inputs := .txn (encode .rdGate) :: [], steps := s.steps + 3 } = .next t) :=
  ⟨rfl, rfl, ⟨_, _, rfl, rfl⟩, (test_wait_runs e).imp' _ fun _ h => h, by omega, rfl, rfl, _, rfl⟩

theorem witness_ResetLeavesTableValues : 15 < Config.npins := by decide

theorem witness_StepKeepsCountingBounds : (running 1#32).Inv ∧ ∃ t, step (running 1#32) = .next t :=
  ⟨witness_inv_running _, _, rfl⟩

theorem witness_StepKeepsGatedBlocksIdle :
    { State.reset with timClkEn := true }.GatedBlocksIdle ∧ ∃ t, step { State.reset with timClkEn := true } = .next t :=
  ⟨⟨fun h => by simp at h, fun _ n => by
    simp only [State.pin, State.reset, Vector.getElem?_replicate]; split <;> rfl⟩, _, rfl⟩

end Sys2Proof.Tests
end

section
/-! PROOFS. The bus master's view (00_scope.md R12, 20_memory.md R50, R51): the words of `memReadTxn` and `memWriteTxn` laid
out by the fields of R70, the alignment of every mapped offset, and the window of addresses. -/

namespace Sys2Proof

/-! ### The offset operand -/

/-- The operand `OFF` in its place, bits 43:32 (30_encoding.md R70). -/
def offBits (off : Offset) : TxnWord := off.setWidth 48 <<< 32

theorem getLsbD_or_offBits_of_lt (m : TxnWord) (off : Offset) {i : Nat} (h : i < 32) :
    (m ||| offBits off).getLsbD i = m.getLsbD i := by
  simp [offBits, h]

theorem getLsbD_or_offBits_of_ge (m : TxnWord) (off : Offset) {i : Nat} (h : 44 ≤ i) :
    (m ||| offBits off).getLsbD i = m.getLsbD i := by
  have hoff : off.getLsbD (i - 32) = false := BitVec.getLsbD_of_ge _ _ (by omega)
  simp [offBits, hoff]

/-- The field `OFF` of a pattern with offset zero is the operand. -/
theorem txnOff_or_offBits {m : TxnWord} (off : Offset) (h : txnOff m = 0#12) : txnOff (m ||| offBits off) = off := by
  have hoff : txnOff (offBits off) = off := by
    ext i hi
    simp [txnOff, offBits, hi, BitVec.getLsbD_eq_getElem, show 32 + i < 48 by omega]
  have hor : txnOff (m ||| offBits off) = txnOff m ||| txnOff (offBits off) := BitVec.extractLsb'_or
  rw [hor, h, hoff, BitVec.zero_or]

/-! ### A word built from a kind pattern, an offset and data -/

section Fields
variable (m : TxnWord) (off : Offset) (v : Word)

@[simp] theorem txnRsv_or_offBits_or_dataBits : txnRsv (m ||| offBits off ||| dataBits v) = txnRsv m := by
  rw [txnRsv, getLsbD_or_dataBits_of_ge _ _ (by decide), getLsbD_or_offBits_of_ge _ _ (by decide), txnRsv]

@[simp] theorem txnRw_or_offBits_or_dataBits : txnRw (m ||| offBits off ||| dataBits v) = txnRw m := by
  rw [txnRw, getLsbD_or_dataBits_of_ge _ _ (by decide), getLsbD_or_offBits_of_ge _ _ (by decide), txnRw]

@[simp] theorem txnSize_or_offBits_or_dataBits : txnSize (m ||| offBits off ||| dataBits v) = txnSize m := by
  rw [txnSize, extractLsb'_or_dataBits_of_ge _ _ (by decide)]
  ext i hi
  rw [BitVec.getElem_extractLsb', getLsbD_or_offBits_of_ge _ _ (by omega), txnSize, BitVec.getElem_extractLsb']

variable {m}

theorem txnOff_or_offBits_or_dataBits (h : txnOff m = 0#12) : txnOff (m ||| offBits off ||| dataBits v) = off := by
  rw [txnOff, extractLsb'_or_dataBits_of_ge _ _ (by decide), ← txnOff, txnOff_or_offBits off h]

theorem txnData_or_offBits_or_dataBits (h : txnData m = 0#32) : txnData (m ||| offBits off ||| dataBits v) = v := by
  refine txnData_or_dataBits v (Eq.trans ?_ h)
  ext i hi
  rw [txnData, BitVec.getElem_extractLsb', getLsbD_or_offBits_of_lt _ _ (by omega), txnData, BitVec.getElem_extractLsb']

end Fields

/-! ### Decoding an access -/

/-- Every mapped offset is word-aligned, so an access at one passes the third test of R76. -/
theorem aligned_of_lookup_eq_some {off : Offset} {r : Reg} (h : lookup off = some r) : off.extractLsb' 0 2 = 0#2 := by
  by_contra hoff
  have hfixed (c : Offset) (hc : c.extractLsb' 0 2 = 0#2) : off ≠ c := fun e => hoff (e ▸ hc)
  simp [lookup, hfixed, hoff] at h

/-- A legal word access at a mapped offset, with data only if it is a write, decodes to the register's transaction. -/
theorem decode_or_offBits_or_dataBits {m : TxnWord} {off : Offset} {v : Word} {r : Reg} (hrsv : txnRsv m = false)
    (hsize : txnSize m = 0b10#2) (hoff : txnOff m = 0#12) (hdata : txnData m = 0#32) (hv : txnRw m = true ∨ v = 0#32)
    (hr : lookup off = some r) :
    decode (m ||| offBits off ||| dataBits v) = .ok (if txnRw m then r.write v else r.read) := by
  have hoff' := txnOff_or_offBits_or_dataBits off v hoff
  have hdata' := txnData_or_offBits_or_dataBits off v hdata
  rw [decode_eq_ok (r := r) (by simpa) (by simpa [hdata']) (by simpa) (by rw [hoff', aligned_of_lookup_eq_some hr])
    (by rw [hoff', hr]), hdata', txnRw_or_offBits_or_dataBits]

/-- A bus read is the read pattern with the offset in its place and data zero. -/
theorem memReadTxn_eq (off : Offset) : memReadTxn off = 0x400000000000#48 ||| offBits off ||| dataBits 0#32 := by
  simp [memReadTxn, offBits, dataBits]

theorem decode_memReadTxn {off : Offset} {r : Reg} (h : lookup off = some r) : decode (memReadTxn off) = .ok r.read := by
  rw [memReadTxn_eq]
  exact decode_or_offBits_or_dataBits rfl rfl rfl rfl (.inr rfl) h

theorem decode_memWriteTxn {off : Offset} {r : Reg} (v : Word) (h : lookup off = some r) :
    decode (memWriteTxn off v) = .ok (r.write v) :=
  decode_or_offBits_or_dataBits rfl rfl rfl rfl (.inl rfl) h

/-! ### The window -/

/-- Every offset of the window has its address at `PWMT_BASE` plus itself. -/
theorem windowOffset_pwmtBase_add (off : Offset) : windowOffset (Config.pwmtBase + off.toNat) = some off := by
  have hin : Config.pwmtBase ≤ Config.pwmtBase + off.toNat ∧ Config.pwmtBase + off.toNat < Config.pwmtBase + 4096 := by
    have := off.isLt
    omega
  rw [windowOffset, if_pos hin, Nat.add_sub_cancel_left, BitVec.ofNat_toNat, BitVec.setWidth_eq]

/-- An address below the window or past its last byte has no offset. -/
theorem windowOffset_eq_none {addr : Nat} (h : addr < Config.pwmtBase ∨ Config.pwmtBase + 4096 ≤ addr) :
    windowOffset addr = none :=
  if_neg (by omega)

theorem pageSize_dvd_pwmtBase : 4096 ∣ Config.pwmtBase := Dvd.intro _ rfl

/-- Settles O6: a mapped offset is aligned, so the access's word, laid out by its fields, passes every test of R76; the
window is the interval of 4096 addresses from `PWMT_BASE`. -/
theorem busAccessIsOneTransaction : Obligations.BusAccessIsOneTransaction :=
  ⟨fun _ _ v h => ⟨decode_memReadTxn h, decode_memWriteTxn v h⟩, windowOffset_pwmtBase_add,
    fun _ h => windowOffset_eq_none h, pageSize_dvd_pwmtBase⟩

end Sys2Proof
end

section
/-! PROOFS. The reset state (10_state.md R37, 70_reset_and_hazards.md R230, R231): the fields of every pin's configuration and
the two output signals, from what makes each inactive: a disabled channel and the input mode. -/

namespace Sys2Proof.Machine

/-- A disabled channel drives 0, whatever the compare unit says (43_counter_compare.md R171). -/
theorem tout_eq_false_of_chen_eq_false {s : State} (h : s.chen = false) : tout s = false := by
  simp [tout, h]

/-- An input pin is undriven, so its pull resistor alone gives its level (41_pin_mux.md R118). -/
theorem pinLevel_of_input {s : State} {n : Nat} (k : Nat) (h : (s.pin n).mode = .input) :
    pinLevel k s n = pullLevel (s.pin n) := by
  simp [pinLevel, pinLevelWith, h]

/-- Every field of a pin's configuration is 0 at reset. -/
theorem State.reset_pin_fields (n : Nat) :
    (State.reset.pin n).mode.bits = 0#2 ∧ (State.reset.pin n).otype.bits = 0#1 ∧ (State.reset.pin n).pull.bits = 0#2 ∧
      (State.reset.pin n).speed.bits = 0#2 ∧ (State.reset.pin n).af = 0#4 := by
  rw [State.reset_pin]
  exact ⟨rfl, rfl, rfl, rfl, rfl⟩

/-- Every pin is undriven and unpulled at reset. -/
theorem pinLevel_reset (k n : Nat) : pinLevel k State.reset n = .floating := by
  have hpin := State.reset_pin n
  rw [pinLevel_of_input k (by rw [hpin]; rfl), hpin]
  rfl

/-- Settles O54: the registers, the record and the reset step by computation; `TOUT` is 0 because the channel is disabled,
and every pin Z because its configuration is the reset one, an input without pull. -/
theorem resetLeavesTableValues : Obligations.ResetLeavesTableValues :=
  ⟨rfl, rfl, rfl, rfl, rfl, rfl, rfl, rfl, rfl, rfl, rfl, rfl, rfl, fun n _ => State.reset_pin_fields n,
    tout_eq_false_of_chen_eq_false rfl, fun k n _ => pinLevel_reset k n, fun _ => rfl⟩

end Sys2Proof.Machine
end

section
/-! PROOFS. Register access (20_memory.md R55, R59): the fields a write stores put together again are the value written, so
the read after it returns that value and the same write again changes nothing; a read changes only the data returned. -/

namespace Sys2Proof.Machine

/-! ### Write data taken apart and put together again -/

/-- A word whose bits from `k` up are 0 is the zero-extension of its low `k` bits. -/
theorem setWidth_extractLsb'_of_high_eq_zero {w k m : Nat} {v : BitVec w} (hw : w ≤ k + m)
    (h : v.extractLsb' k m = 0#m) : (v.extractLsb' 0 k).setWidth w = v := by
  ext i hi
  rw [BitVec.getElem_setWidth, BitVec.getLsbD_extractLsb', Nat.zero_add, ← BitVec.getLsbD_eq_getElem hi]
  by_cases hk : i < k
  · simp [hk]
  · have hbit : (v.extractLsb' k m).getLsbD (i - k) = false := by rw [h, BitVec.getLsbD_zero]
    rw [BitVec.getLsbD_extractLsb', Nat.add_sub_cancel' (Nat.le_of_not_lt hk)] at hbit
    simpa [hk, show i - k < m by omega] using hbit.symm

/-- A flag is the field of its one bit. -/
theorem ofBool_getLsbD {w : Nat} (v : BitVec w) (i : Nat) : BitVec.ofBool (v.getLsbD i) = v.extractLsb' i 1 := by
  ext j hj
  simp [show j = 0 by omega]

theorem twoFlagsData_getLsbD {v : Word} (h : v.extractLsb' 2 30 = 0#30) :
    twoFlagsData (v.getLsbD 0) (v.getLsbD 1) = v := by
  rw [twoFlagsData, ofBool_getLsbD, ofBool_getLsbD,
    BitVec.extractLsb'_append_extractLsb'_eq_extractLsb' (show 1 = 0 + 1 from rfl)]
  exact setWidth_extractLsb'_of_high_eq_zero (by decide) h

theorem chcfgData_of_chcfgOfData {v : Word} {m : OcMode} {f : Bool} (h : chcfgOfData v = some (m, f)) :
    chcfgData m f = v := by
  obtain ⟨hv, hm, rfl⟩ := chcfgOfData_eq_some.mp h
  rw [chcfgData, hm, ofBool_getLsbD, BitVec.extractLsb'_append_extractLsb'_eq_extractLsb' (show 2 = 0 + 2 from rfl)]
  exact setWidth_extractLsb'_of_high_eq_zero (by decide) hv

theorem pinData_of_pinOfData {v : Word} {c : PinCfg} (h : pinOfData v = some c) : pinData c = v := by
  obtain ⟨hv, h7, hmode, hotype, hpull, hspeed, haf⟩ := pinOfData_eq_some.mp h
  have hbit : 0#1 = v.extractLsb' 7 1 := by rw [← ofBool_getLsbD, h7]; rfl
  rw [pinData, hmode, hotype, hpull, hspeed, haf, hbit]
  simp (disch := decide) only [BitVec.extractLsb'_append_extractLsb'_eq_extractLsb']
  exact setWidth_extractLsb'_of_high_eq_zero (by decide) hv

/-! ### A register's two transactions -/

theorem eq_write_of_writeData {i : Instr} {v : Word} (h : i.writeData = some v) : i = i.reg.write v := by
  cases i <;> cases h <;> rfl

theorem eq_read_of_writeData {i : Instr} (h : i.writeData = none) : i = i.reg.read := by
  cases i <;> cases h <;> rfl

/-- A read that completes answers the same state with some data returned (20_memory.md R55). -/
theorem setReadData_of_exec_read {r : Reg} {s t : State} (h : exec r.read s = .next t) :
    ∃ d, t = s.setReadData d := by
  cases r with
  | gate => exact ⟨_, execRdGate_next.mp h⟩
  | timCtrl => exact ⟨_, (execRdTimCtrl_next.mp h).2⟩
  | timChcfg => exact ⟨_, (execRdTimChcfg_next.mp h).2⟩
  | timPsc =>
    obtain ⟨-, p, -, ht⟩ := execRdTimPsc_next.mp h
    exact ⟨_, ht⟩
  | timArr =>
    obtain ⟨-, a, -, ht⟩ := execRdTimArr_next.mp h
    exact ⟨_, ht⟩
  | timCcr =>
    obtain ⟨-, c, -, ht⟩ := execRdTimCcr_next.mp h
    exact ⟨_, ht⟩
  | timCnt => exact ⟨_, (execRdTimCnt_next.mp h).2⟩
  | pincfg n =>
    obtain ⟨-, -, ht⟩ := execRdPincfg_next.mp h
    exact ⟨_, ht⟩

/-! ### The read after a write -/

/-- A `TIM_CCR` write stores the preload copy, whether or not it loads the active one. -/
theorem execWrTimCcr_fields {v : Word} {s t : State} (h : exec (.wrTimCcr v) s = .next t) :
    t.timClkEn = true ∧ t.ccrPre = some v := by
  obtain ⟨hclk, rfl⟩ := execWrTimCcr_next.mp h
  split <;> exact ⟨hclk, rfl⟩

/-- The gate that let a write through is still open after it, so the read completes; it returns the stored fields in their
places, which is the value written. -/
theorem exec_read_of_exec_write {r : Reg} {v : Word} {s t : State} (h : exec (r.write v) s = .next t) :
    exec r.read t = .next (t.setReadData v) := by
  cases r with
  | gate =>
    obtain ⟨hv, -, -, rfl⟩ := execWrGate_next.mp h
    exact execRdGate_next.mpr (congrArg _ (twoFlagsData_getLsbD hv).symm)
  | timCtrl =>
    obtain ⟨hclk, hv, -, -, rfl⟩ := execWrTimCtrl_next.mp h
    exact execRdTimCtrl_next.mpr ⟨hclk, congrArg _ (twoFlagsData_getLsbD hv).symm⟩
  | timChcfg =>
    obtain ⟨hclk, -, m, f, hv, rfl⟩ := execWrTimChcfg_next.mp h
    exact execRdTimChcfg_next.mpr ⟨hclk, congrArg _ (chcfgData_of_chcfgOfData hv).symm⟩
  | timPsc =>
    obtain ⟨hclk, -, hv, rfl⟩ := execWrTimPsc_next.mp h
    exact execRdTimPsc_next.mpr ⟨hclk, _, rfl, congrArg _ (setWidth_extractLsb'_of_high_eq_zero (by decide) hv).symm⟩
  | timArr =>
    obtain ⟨hclk, -, rfl⟩ := execWrTimArr_next.mp h
    exact execRdTimArr_next.mpr ⟨hclk, v, rfl, rfl⟩
  | timCcr =>
    obtain ⟨hclk, hpre⟩ := execWrTimCcr_fields h
    exact execRdTimCcr_next.mpr ⟨hclk, v, hpre, rfl⟩
  | timCnt => exact absurd h (execWrTimCnt_ne_next v s t)
  | pincfg n =>
    obtain ⟨hn, hclk, c, hv, rfl⟩ := execWrPincfg_next.mp h
    exact execRdPincfg_next.mpr ⟨hn, hclk, by rw [State.setPin_pin_self _ hn, pinData_of_pinOfData hv]⟩

/-! ### The same write again -/

/-- With `CEN` already at the value written, the write starts nothing. -/
@[simp] theorem State.starting_setCtrl_self (s : State) (c h : Bool) : (s.setCtrl c h).starting c = false := by
  simp [State.starting]

/-- With `CHEN` already at the value written, the write routes nothing. -/
@[simp] theorem State.routing_setCtrl_self (s : State) (c h : Bool) : (s.setCtrl c h).routing h = false := by
  simp [State.routing]

@[simp] theorem State.setPin_setPin_self (s : State) (n : Nat) (c : PinCfg) :
    (s.setPin n c).setPin n c = s.setPin n c := by
  simp [State.setPin]

/-- No check of a write fails on the state it left: the gate and the lock are as before, a gate that is set is not cleared,
and nothing is started or routed again. -/
theorem exec_write_of_exec_write {r : Reg} {v : Word} {s t : State} (h : exec (r.write v) s = .next t) :
    exec (r.write v) t = .next t := by
  cases r with
  | gate =>
    obtain ⟨hv, -, -, rfl⟩ := execWrGate_next.mp h
    exact execWrGate_next.mpr ⟨hv, id, id, rfl⟩
  | timCtrl =>
    obtain ⟨hclk, hv, -, -, rfl⟩ := execWrTimCtrl_next.mp h
    exact execWrTimCtrl_next.mpr ⟨hclk, hv, by simp, by simp, rfl⟩
  | timChcfg =>
    obtain ⟨hclk, hcen, m, f, hv, rfl⟩ := execWrTimChcfg_next.mp h
    exact execWrTimChcfg_next.mpr ⟨hclk, hcen, m, f, hv, rfl⟩
  | timPsc =>
    obtain ⟨hclk, hcen, hv, rfl⟩ := execWrTimPsc_next.mp h
    exact execWrTimPsc_next.mpr ⟨hclk, hcen, hv, rfl⟩
  | timArr =>
    obtain ⟨hclk, hcen, rfl⟩ := execWrTimArr_next.mp h
    exact execWrTimArr_next.mpr ⟨hclk, hcen, rfl⟩
  | timCcr =>
    obtain ⟨hclk, rfl⟩ := execWrTimCcr_next.mp h
    cases hload : s.loadsAtOnce
    · exact execWrTimCcr_next.mpr ⟨hclk, (if_neg (ne_true_of_eq_false hload)).symm⟩
    · exact execWrTimCcr_next.mpr ⟨hclk, (if_pos hload).symm⟩
  | timCnt => exact absurd h (execWrTimCnt_ne_next v s t)
  | pincfg n =>
    obtain ⟨hn, hclk, c, hv, rfl⟩ := execWrPincfg_next.mp h
    exact execWrPincfg_next.mpr ⟨hn, hclk, c, hv, (State.setPin_setPin_self s n c).symm⟩

/-- Settles O30: the instruction is its register's write, and each register's read finds its fields as the write stored
them. -/
theorem readReturnsLastWrittenValue : Obligations.ReadReturnsLastWrittenValue := fun _ _ _ _ hi h =>
  exec_read_of_exec_write (eq_write_of_writeData hi ▸ h)

/-- Settles O31: the instruction is its register's read, which ends by handing the data over. -/
theorem readsChangeNoState : Obligations.ReadsChangeNoState := fun _ _ _ hi h =>
  setReadData_of_exec_read (eq_read_of_writeData hi ▸ h)

/-- Settles O32: the instruction is its register's write, and none of its checks can fail on the state it left. -/
theorem writesAreIdempotent : Obligations.WritesAreIdempotent := fun _ _ _ _ hi h => by
  rw [eq_write_of_writeData hi] at h ⊢
  exact exec_write_of_exec_write h

end Sys2Proof.Machine
end

section
/-! PROOFS. Refusals (20_memory.md R62, R63): the meanings of the transactions are built of checks, demands and answers, none
of which refuses, so what a step refuses is what it refuses by name. -/

namespace Sys2Proof.Machine

/-! ### The shared operations refuse nothing on their own -/

section
variable {f : Fault} {r : Refusal} {k : Result}

theorem require_ne_refused {c : Prop} [Decidable c] (h : k ≠ .refused r) : require c f k ≠ .refused r := fun e =>
  h (require_eq_refused.mp e).2

theorem demand_ne_refused {α : Type} {o : Option α} {k : α → Result} (h : ∀ a, k a ≠ .refused r) :
    demand o f k ≠ .refused r := fun e =>
  have ⟨a, _, ha⟩ := demand_eq_refused.mp e
  h a ha

theorem requireTimerClock_ne_refused {i : Instr} {s : State} (h : k ≠ .refused r) :
    requireTimerClock i s k ≠ .refused r :=
  require_ne_refused h

theorem requirePin_ne_refused {i : Instr} {n : Nat} {s : State} (h : k ≠ .refused r) :
    requirePin i n s k ≠ .refused r :=
  require_ne_refused (require_ne_refused h)

end

/-- No transaction is refused. -/
theorem exec_ne_refused (i : Instr) (s : State) (r : Refusal) : exec i s ≠ .refused r := by
  cases i with
  | wrGate v => exact demand_ne_refused fun _ => require_ne_refused nofun
  | rdGate => exact answer_ne_refused _ s r
  | wrTimCtrl v =>
    exact requireTimerClock_ne_refused <| demand_ne_refused fun _ =>
      require_ne_refused <| require_ne_refused <| require_ne_refused nofun
  | wrTimChcfg v =>
    exact requireTimerClock_ne_refused <| demand_ne_refused fun _ => require_ne_refused nofun
  | wrTimPsc v =>
    exact requireTimerClock_ne_refused <| demand_ne_refused fun _ => require_ne_refused nofun
  | wrTimArr v => exact requireTimerClock_ne_refused <| require_ne_refused nofun
  | wrTimCcr v => exact requireTimerClock_ne_refused nofun
  | wrTimCnt v => exact requireTimerClock_ne_refused nofun
  | rdTimCtrl => exact requireTimerClock_ne_refused (answer_ne_refused _ s r)
  | rdTimChcfg => exact requireTimerClock_ne_refused (answer_ne_refused _ s r)
  | rdTimPsc => exact requireTimerClock_ne_refused <| demand_ne_refused fun _ => answer_ne_refused _ s r
  | rdTimArr => exact requireTimerClock_ne_refused <| demand_ne_refused fun _ => answer_ne_refused _ s r
  | rdTimCcr => exact requireTimerClock_ne_refused <| demand_ne_refused fun _ => answer_ne_refused _ s r
  | rdTimCnt => exact requireTimerClock_ne_refused (answer_ne_refused _ s r)
  | wrPincfg n v => exact requirePin_ne_refused <| demand_ne_refused fun _ => nofun
  | rdPincfg n => exact requirePin_ne_refused (answer_ne_refused _ s r)

/-- Everything a refused step can be: no fault was recorded, and the next input was a fetch from the window or a cached
access, refused under its name. -/
theorem step_refused_cases {s : State} {r : Refusal} (h : step s = .refused r) : s.faultRecord = none ∧
    ((∃ off rest, s.inputs = .fetch off :: rest ∧ r = .windowFetch off) ∨
     (∃ w rest, s.inputs = .cached w :: rest ∧ r = .cachedAccess w)) := by
  unfold step at h
  split at h
  · cases h
  next hf =>
    refine ⟨hf, ?_⟩
    split at h
    · cases h
    · cases h
    · cases h
    · next off rest hi => exact .inl ⟨off, rest, hi, (Host.Outcome.refused.inj h).symm⟩
    · next w rest hi => exact .inr ⟨w, rest, hi, (Host.Outcome.refused.inj h).symm⟩
    · split at h
      · cases h
      · exact absurd h (exec_ne_refused _ _ r)

theorem step_fetch {s : State} {off : Offset} {rest : List Input} (hf : s.faultRecord = none)
    (hi : s.inputs = .fetch off :: rest) : step s = .refused (.windowFetch off) := by
  simp [step, hf, hi]

theorem step_cached {s : State} {w : TxnWord} {rest : List Input} (hf : s.faultRecord = none)
    (hi : s.inputs = .cached w :: rest) : step s = .refused (.cachedAccess w) := by
  simp [step, hf, hi]

/-- Settles O53: a refused step can only be one of the two accesses, and each of them is refused under its name. -/
theorem onlyFetchAndCachedAccessRefused : Obligations.OnlyFetchAndCachedAccessRefused := by
  intro s r
  constructor
  · exact step_refused_cases
  · rintro ⟨hf, ⟨off, rest, hi, rfl⟩ | ⟨w, rest, hi, rfl⟩⟩
    · exact step_fetch hf hi
    · exact step_cached hf hi

end Sys2Proof.Machine
end

section
/-! PROOFS. Encoding (30_encoding.md R70, R71, R76): a word is its kind digit, its offset and its data; the decoder as a
statement about these three fields; the fields of an instruction's word; and that decoding and encoding are inverse. -/

namespace Sys2Proof

/-! ### The kind digit, offset and data of a word -/

/-- The bits `RSV`, `SIZE` and `RW`, 47:44: `0x5` for a legal write and `0x4` for a legal read (30_encoding.md R70). -/
def txnKind (w : TxnWord) : BitVec 4 := w.extractLsb' 44 4

theorem txnWord_ext_iff {w w' : TxnWord} :
    w = w' ↔ txnKind w = txnKind w' ∧ txnOff w = txnOff w' ∧ txnData w = txnData w' := by
  refine ⟨fun h => by simp [h], fun ⟨hkind, hoff, hdata⟩ => ?_⟩
  have happend (u : TxnWord) : txnKind u ++ (txnOff u ++ txnData u) = u := by
    rw [txnKind, txnOff, txnData, BitVec.extractLsb'_append_extractLsb'_eq_extractLsb' (by decide),
      BitVec.extractLsb'_append_extractLsb'_eq_extractLsb' (by decide), BitVec.extractLsb'_eq_self]
  rw [← happend w, hkind, hoff, hdata, happend]

theorem txnRsv_eq (w : TxnWord) : txnRsv w = (txnKind w).getLsbD 3 := by simp [txnRsv, txnKind]

theorem txnRw_eq (w : TxnWord) : txnRw w = (txnKind w).getLsbD 0 := by simp [txnRw, txnKind]

theorem txnSize_eq (w : TxnWord) : txnSize w = (txnKind w).extractLsb' 1 2 := by
  ext i hi
  simp [txnSize, txnKind, show 1 + i < 4 by omega, ← Nat.add_assoc]

@[simp] theorem txnKind_or_offBits_or_dataBits (m : TxnWord) (off : Offset) (v : Word) :
    txnKind (m ||| offBits off ||| dataBits v) = txnKind m := by
  rw [txnKind, extractLsb'_or_dataBits_of_ge _ _ (by decide)]
  ext i hi
  rw [BitVec.getElem_extractLsb', getLsbD_or_offBits_of_ge _ _ (by omega), txnKind, BitVec.getElem_extractLsb']

/-- The kind digit of an instruction's word. -/
def Instr.kind (i : Instr) : BitVec 4 := if i.writeData.isSome then 0x5#4 else 0x4#4

/-! ### The offset of a register -/

/-- The offset of a register (10_state.md R24); for a pin outside the bank the offset its word has (log 11). -/
def Reg.off : Reg → Offset
  | .gate => 0x000#12
  | .timCtrl => 0x010#12
  | .timChcfg => 0x014#12
  | .timPsc => 0x018#12
  | .timArr => 0x01C#12
  | .timCcr => 0x020#12
  | .timCnt => 0x024#12
  | .pincfg n => 0x100#12 ||| BitVec.ofNat 12 (min n 63) <<< 2

/-- A pin's offset is built from its index as the word's pin operand is. -/
theorem offBits_pincfg (n : Nat) : offBits (Reg.pincfg n).off = 0x010000000000#48 ||| pinBits n := by
  have h : ∀ k : Fin 64,
      offBits (0x100#12 ||| BitVec.ofNat 12 k <<< 2) = 0x010000000000#48 ||| BitVec.ofNat 48 k <<< 34 := by decide
  exact h ⟨min n 63, by omega⟩

theorem lookup_off_pincfg (n : Nat) :
    lookup (Reg.pincfg n).off = if n < Config.npins then some (.pincfg n) else none := by
  have h : ∀ k : Fin 64, lookup (0x100#12 ||| BitVec.ofNat 12 k <<< 2) =
      if k.val < Config.npins then some (.pincfg k) else none := by decide
  have hk : lookup (Reg.pincfg n).off = if min n 63 < Config.npins then some (.pincfg (min n 63)) else none :=
    h ⟨min n 63, by omega⟩
  rw [hk]
  by_cases hn : n < 16
  · rw [Nat.min_eq_left (by omega)]
  · rw [if_neg hn, if_neg (show ¬ min n 63 < 16 by omega)]

/-- The register of a well-formed instruction is found at its offset. -/
theorem lookup_off_of_wellFormed {i : Instr} (h : i.WellFormed) : lookup i.reg.off = some i.reg := by
  cases i with
  | wrPincfg n v => exact (lookup_off_pincfg n).trans (if_pos (of_decide_eq_true h))
  | rdPincfg n => exact (lookup_off_pincfg n).trans (if_pos (of_decide_eq_true h))
  | _ => rfl

/-- The one operand that can be ill-formed is a pin index, and no register is found at its offset. -/
theorem lookup_off_of_not_wellFormed {i : Instr} (h : ¬ i.WellFormed) : lookup i.reg.off = none := by
  cases i with
  | wrPincfg n v => exact (lookup_off_pincfg n).trans (if_neg fun hn => h (decide_eq_true hn))
  | rdPincfg n => exact (lookup_off_pincfg n).trans (if_neg fun hn => h (decide_eq_true hn))
  | _ => exact absurd rfl h

/-- An offset with the fixed bits of the pin bank is that of the pin in its field (30_encoding.md R71). -/
theorem off_pincfg_of_fixed_bits {off : Offset} (hhigh : off.extractLsb' 6 6 = 0b000100#6)
    (hlow : off.extractLsb' 0 2 = 0#2) : (Reg.pincfg (off.extractLsb' 2 4).toNat).off = off := by
  have h : ∀ x : BitVec 4, (Reg.pincfg x.toNat).off = 0b000100#6 ++ (x ++ 0#2) := by decide
  rw [h, ← hhigh, ← hlow, BitVec.extractLsb'_append_extractLsb'_eq_extractLsb' (by decide),
    BitVec.extractLsb'_append_extractLsb'_eq_extractLsb' (by decide), BitVec.extractLsb'_eq_self]

/-- A register is found at no other offset than its own. -/
theorem off_of_lookup_eq_some {off : Offset} {r : Reg} (h : lookup off = some r) : r.off = off := by
  unfold lookup at h
  split_ifs at h with _ _ _ _ _ _ _ hpin <;> obtain rfl := Option.some.inj h
  pick_goal 8
  · obtain ⟨hhigh, hlow, -⟩ := hpin
    exact off_pincfg_of_fixed_bits hhigh hlow
  all_goals exact Eq.symm ‹_›

/-- Only well-formed instructions have a register that is found. -/
theorem wellFormed_of_lookup_eq_some {off : Offset} {i : Instr} (h : lookup off = some i.reg) : i.WellFormed := by
  by_contra hi
  rw [← off_of_lookup_eq_some h, lookup_off_of_not_wellFormed hi] at h
  cases h

/-! ### The word of an instruction -/

/-- The word of an instruction, laid out by its fields. -/
theorem encode_eq (i : Instr) : encode i =
    (if i.writeData.isSome then 0x500000000000#48 else 0x400000000000#48) ||| offBits i.reg.off |||
      dataBits (i.writeData.getD 0#32) := by
  cases i with
  | wrPincfg n v => simp [encode, Instr.reg, Instr.writeData, offBits_pincfg, ← BitVec.or_assoc]
  | rdPincfg n => simp [encode, Instr.reg, Instr.writeData, offBits_pincfg, ← BitVec.or_assoc, dataBits]
  | _ => simp [encode, Instr.reg, Instr.writeData, Reg.off, offBits, dataBits]

@[simp] theorem txnKind_encode (i : Instr) : txnKind (encode i) = i.kind := by
  rw [encode_eq, txnKind_or_offBits_or_dataBits, Instr.kind]
  split <;> rfl

@[simp] theorem txnOff_encode (i : Instr) : txnOff (encode i) = i.reg.off := by
  rw [encode_eq, txnOff_or_offBits_or_dataBits]
  split <;> rfl

@[simp] theorem txnData_encode (i : Instr) : txnData (encode i) = i.writeData.getD 0#32 := by
  rw [encode_eq, txnData_or_offBits_or_dataBits]
  split <;> rfl

/-! ### The decoder by the three fields -/

@[simp] theorem Reg.write_reg (r : Reg) (v : Word) : (r.write v).reg = r := by cases r <;> rfl

@[simp] theorem Reg.write_writeData (r : Reg) (v : Word) : (r.write v).writeData = some v := by cases r <;> rfl

@[simp] theorem Reg.read_reg (r : Reg) : r.read.reg = r := by cases r <;> rfl

@[simp] theorem Reg.read_writeData (r : Reg) : r.read.writeData = none := by cases r <;> rfl

/-- The kind digit of a word that passes the first two tests of R76. -/
theorem txnKind_of_legal {w : TxnWord} (hrsv : txnRsv w = false) (hsize : txnSize w = 0b10#2) :
    txnKind w = if txnRw w then 0x5#4 else 0x4#4 := by
  have h : ∀ k : BitVec 4, k.getLsbD 3 = false → k.extractLsb' 1 2 = 0b10#2 →
      k = if k.getLsbD 0 then 0x5#4 else 0x4#4 := by decide
  rw [txnRw_eq]
  exact h _ (txnRsv_eq w ▸ hrsv) (txnSize_eq w ▸ hsize)

/-- The three flags behind the kind digit of an instruction. -/
theorem flags_of_txnKind_eq {w : TxnWord} {i : Instr} (h : txnKind w = i.kind) :
    txnRsv w = false ∧ txnSize w = 0b10#2 ∧ txnRw w = i.writeData.isSome := by
  rw [txnRsv_eq, txnSize_eq, txnRw_eq, h, Instr.kind]
  cases i.writeData.isSome <;> decide

/-- The first test of R76 passes: `RSV` is 0, and a word with data is a write. -/
theorem not_encoding_fault_iff {w : TxnWord} : ¬ (txnRsv w = true ∨ (txnRw w = false ∧ txnData w ≠ 0#32)) ↔
    txnRsv w = false ∧ (txnRw w = true ∨ txnData w = 0#32) := by
  rw [not_or, Bool.not_eq_true, not_and_or, Bool.not_eq_false, not_not]

/-- A word that decodes passed the tests of R76 and is a transaction of the register at its offset. -/
theorem tests_of_decode_eq_ok {w : TxnWord} {i : Instr} (h : decode w = .ok i) :
    txnRsv w = false ∧ txnSize w = 0b10#2 ∧ (txnRw w = true ∨ txnData w = 0#32) ∧
      ∃ r, lookup (txnOff w) = some r ∧ i = if txnRw w then r.write (txnData w) else r.read := by
  unfold decode at h
  split at h
  · cases h
  next hlegal =>
  obtain ⟨hrsv, hdata⟩ := not_encoding_fault_iff.mp hlegal
  split at h
  · cases h
  next hsize =>
  split at h
  · cases h
  split at h
  · cases h
  next r hr => exact ⟨hrsv, not_not.mp hsize, hdata, r, hr, (Except.ok.inj h).symm⟩

/-- A word that passes the first three tests of R76 and has no register at its offset is unmapped. -/
theorem decode_eq_unmapped {w : TxnWord} (hlegal : ¬ (txnRsv w = true ∨ (txnRw w = false ∧ txnData w ≠ 0#32)))
    (hsize : txnSize w = 0b10#2) (halign : (txnOff w).extractLsb' 0 2 = 0#2) (hnone : lookup (txnOff w) = none) :
    decode w = .error .unmapped := by
  simp only [decode, if_neg hlegal, hsize, ne_eq, not_true, if_false, halign, hnone]

/-- What it takes to decode: the kind digit of the instruction, an offset at which its register is found, and as data its
operand, or 0 in a read. -/
theorem decode_eq_ok_iff {w : TxnWord} {i : Instr} : decode w = .ok i ↔
    txnKind w = i.kind ∧ lookup (txnOff w) = some i.reg ∧ txnData w = i.writeData.getD 0#32 := by
  constructor
  · intro h
    obtain ⟨hrsv, hsize, hdata, r, hr, rfl⟩ := tests_of_decode_eq_ok h
    have hkind := txnKind_of_legal hrsv hsize
    cases hrw : txnRw w
    · exact ⟨by simp [hkind, hrw, Instr.kind], by simp [hr], by simpa [hrw] using hdata⟩
    · exact ⟨by simp [hkind, hrw, Instr.kind], by simp [hr], by simp⟩
  · rintro ⟨hkind, hreg, hdata⟩
    obtain ⟨hrsv, hsize, hrw⟩ := flags_of_txnKind_eq hkind
    have halign := aligned_of_lookup_eq_some hreg
    cases hi : i.writeData with
    | none =>
      rw [hi] at hrw hdata
      rw [decode_eq_ok hrsv (.inr hdata) hsize halign hreg, hrw, ← Machine.eq_read_of_writeData hi]; simp
    | some v =>
      rw [hi] at hrw hdata
      rw [decode_eq_ok hrsv (.inl hrw) hsize halign hreg, hrw, hdata, Option.getD_some,
        ← Machine.eq_write_of_writeData hi]; simp

/-! ### Decoding and encoding are inverse -/

theorem decode_encode {i : Instr} (h : i.WellFormed) : decode (encode i) = .ok i :=
  decode_eq_ok_iff.mpr ⟨txnKind_encode i, by rw [txnOff_encode, lookup_off_of_wellFormed h], txnData_encode i⟩

/-- The offset of every register is word-aligned, inside the bank and outside. -/
theorem Reg.off_aligned (r : Reg) : r.off.extractLsb' 0 2 = 0#2 := by
  cases r with
  | pincfg n =>
    have h : ∀ k : Fin 64, (0x100#12 ||| BitVec.ofNat 12 k <<< 2).extractLsb' 0 2 = 0#2 := by decide
    exact h ⟨min n 63, by omega⟩
  | _ => rfl

theorem decode_encode_of_not_wellFormed {i : Instr} (h : ¬ i.WellFormed) : decode (encode i) = .error .unmapped := by
  obtain ⟨hrsv, hsize, hrw⟩ := flags_of_txnKind_eq (txnKind_encode i)
  refine decode_eq_unmapped ?_ hsize ?_ ?_
  · rw [hrsv, hrw, txnData_encode]
    cases i.writeData <;> simp
  · rw [txnOff_encode, i.reg.off_aligned]
  · rw [txnOff_encode, lookup_off_of_not_wellFormed h]

theorem wellFormed_of_decode_eq_ok {w : TxnWord} {i : Instr} (h : decode w = .ok i) : i.WellFormed := by
  obtain ⟨-, hreg, -⟩ := decode_eq_ok_iff.mp h
  exact wellFormed_of_lookup_eq_some hreg

theorem encode_of_decode_eq_ok {w : TxnWord} {i : Instr} (h : decode w = .ok i) : encode i = w := by
  obtain ⟨hkind, hreg, hdata⟩ := decode_eq_ok_iff.mp h
  exact txnWord_ext_iff.mpr
    ⟨by rw [txnKind_encode, hkind], by rw [txnOff_encode, off_of_lookup_eq_some hreg], by rw [txnData_encode, hdata]⟩

/-- Settles O1: an instruction's word has its kind digit, its register's offset and its data, which is what the decoder asks
for; at the offset of a pin outside the bank no register is found. -/
theorem decodeOfEncodeIsInstruction : Obligations.DecodeOfEncodeIsInstruction :=
  ⟨fun _ h => decode_encode h, fun _ h => decode_encode_of_not_wellFormed h⟩

/-- Settles O2: the decoder fixes the kind digit, the offset and the data of the word, and these are all its bits. -/
theorem encodeOfDecodedWordIsWord : Obligations.EncodeOfDecodedWordIsWord := fun _ _ h =>
  ⟨wellFormed_of_decode_eq_ok h, encode_of_decode_eq_ok h⟩

end Sys2Proof
end

section
/-! PROOFS. The opcode map (30_encoding.md R77): each row is the row of a transaction whose operands are all 0, its pattern
that transaction's word and its mask the bits that no operand fills; matching a row is decoding to a transaction that differs
from the row's in its operands only. -/

namespace Sys2Proof

/-! ### A transaction without its operands -/

/-- The register with its index set to 0. -/
def Reg.bare : Reg → Reg
  | .pincfg _ => .pincfg 0
  | r => r

/-- The transaction with every operand set to 0: two transactions have the same one exactly when they share a row. -/
def Instr.bare (i : Instr) : Instr := if i.writeData.isSome then i.reg.bare.write 0#32 else i.reg.bare.read

@[simp] theorem Instr.bare_reg (i : Instr) : i.bare.reg = i.reg.bare := by
  rw [Instr.bare]; split <;> simp

@[simp] theorem Instr.bare_writeData (i : Instr) : i.bare.writeData = i.writeData.map fun _ => 0#32 := by
  rw [Instr.bare]; cases i.writeData <;> simp

@[simp] theorem Instr.bare_mnemonic (i : Instr) : i.bare.mnemonic = i.mnemonic := by cases i <;> rfl

@[simp] theorem Instr.bare_kind (i : Instr) : i.bare.kind = i.kind := by simp [Instr.kind]

theorem Instr.bare_eq_iff {i j : Instr} :
    j.bare = i.bare ↔ j.reg.bare = i.reg.bare ∧ j.writeData.isSome = i.writeData.isSome := by
  constructor
  · intro h
    exact ⟨by rw [← bare_reg, ← bare_reg, h], by simpa using congrArg (fun k => k.writeData.isSome) h⟩
  · rintro ⟨hreg, hdata⟩
    rw [Instr.bare, Instr.bare, hreg, hdata]

/-! ### The fixed bits of a row's offset -/

/-- The bits of the offset that the row of a register fixes: all of them, or in a pin's row all but the index. -/
def Reg.offMask : Reg → Offset
  | .pincfg _ => 0xFC3#12
  | _ => 0xFFF#12

theorem Reg.offMask_eq_of_bare_eq {r r' : Reg} (h : r'.bare = r.bare) : r'.offMask = r.offMask := by
  have hbare (q : Reg) : q.bare.offMask = q.offMask := by cases q <;> rfl
  rw [← hbare, h, hbare]

/-- A field on whose bits the mask is all ones is the pattern's. -/
theorem extractLsb'_of_and_eq {w lo len : Nat} {x m p : BitVec w} (hm : m.extractLsb' lo len = BitVec.allOnes len)
    (h : x &&& m = p) : x.extractLsb' lo len = p.extractLsb' lo len := by
  rw [← h, BitVec.extractLsb'_and, hm, BitVec.and_allOnes]

/-- An offset that is a pin's but for the index is the offset of the pin in its index field (30_encoding.md R71). -/
theorem lookup_of_and_offMask_pincfg {off : Offset} (h : off &&& 0xFC3#12 = 0x100#12) :
    lookup off = some (.pincfg (off.extractLsb' 2 4).toNat) := by
  have hhigh := extractLsb'_of_and_eq (lo := 6) (len := 6) (by decide) h
  have hlow := extractLsb'_of_and_eq (lo := 0) (len := 2) (by decide) h
  have hlt : (off.extractLsb' 2 4).toNat < Config.npins := BitVec.isLt _
  have hfound := lookup_off_pincfg (off.extractLsb' 2 4).toNat
  rwa [off_pincfg_of_fixed_bits hhigh hlow, if_pos hlt] at hfound

/-- The offset of a register that is found has the fixed bits of its row. -/
theorem off_and_offMask {r : Reg} (h : lookup r.off = some r) : r.off &&& r.offMask = r.bare.off := by
  cases r with
  | pincfg n =>
    have hn : n < 16 := of_decide_eq_true (wellFormed_of_lookup_eq_some (i := .rdPincfg n) h)
    have hall : ∀ k : Fin 16, (Reg.pincfg k).off &&& 0xFC3#12 = 0x100#12 := by decide
    exact hall ⟨n, hn⟩
  | _ => rfl

/-- An offset has the fixed bits of a register's row exactly when a register of the row is there. -/
theorem and_offMask_eq_iff {off : Offset} {r : Reg} :
    off &&& r.offMask = r.bare.off ↔ ∃ r', lookup off = some r' ∧ r'.bare = r.bare := by
  constructor
  · intro h
    cases r with
    | pincfg n => exact ⟨_, lookup_of_and_offMask_pincfg h, rfl⟩
    | _ =>
      obtain rfl := (BitVec.and_allOnes (x := off)).symm.trans h
      exact ⟨_, rfl, rfl⟩
  · rintro ⟨r', hr', hbare⟩
    obtain rfl := off_of_lookup_eq_some hr'
    rw [← Reg.offMask_eq_of_bare_eq hbare, ← hbare, off_and_offMask hr']

/-! ### Rows -/

theorem txnKind_and (w w' : TxnWord) : txnKind (w &&& w') = txnKind w &&& txnKind w' := BitVec.extractLsb'_and

theorem txnOff_and (w w' : TxnWord) : txnOff (w &&& w') = txnOff w &&& txnOff w' := BitVec.extractLsb'_and

theorem txnData_and (w w' : TxnWord) : txnData (w &&& w') = txnData w &&& txnData w' := BitVec.extractLsb'_and

/-- The row of a transaction: the word with every operand 0, under the mask of the bits that no operand fills. -/
def Instr.row (i : Instr) : OpcodeRow where
  mnemonic := i.mnemonic
  pattern := encode i.bare
  mask := 0xF00000000000#48 ||| offBits i.reg.offMask |||
    dataBits (if i.writeData.isSome then 0#32 else BitVec.allOnes 32)

/-- Matching a row, field by field: the kind digit, the fixed bits of the offset, and in a read no data. -/
theorem row_matches_iff_fields {i : Instr} {w : TxnWord} : i.row.matches w = true ↔
    txnKind w = i.kind ∧ txnOff w &&& i.reg.offMask = i.reg.bare.off ∧ (i.writeData = none → txnData w = 0#32) := by
  have hkindMask : txnKind i.row.mask = BitVec.allOnes 4 := txnKind_or_offBits_or_dataBits _ _ _
  have hoffMask : txnOff i.row.mask = i.reg.offMask := txnOff_or_offBits_or_dataBits _ _ rfl
  have hdataMask : txnData i.row.mask = if i.writeData.isSome then 0#32 else BitVec.allOnes 32 :=
    txnData_or_offBits_or_dataBits _ _ rfl
  rw [OpcodeRow.matches, beq_iff_eq, txnWord_ext_iff, txnKind_and, txnOff_and, txnData_and, hkindMask, hoffMask, hdataMask,
    BitVec.and_allOnes, Instr.row, txnKind_encode, txnOff_encode, txnData_encode, i.bare_kind, i.bare_reg, i.bare_writeData]
  cases i.writeData with
  | none => simp only [Option.isSome_none, Bool.false_eq_true, if_false, BitVec.and_allOnes, Option.map_none,
      Option.getD_none, true_implies]
  | some v => simp

/-- A word matches the row of a transaction exactly when it decodes to one that differs from it in its operands only. -/
theorem row_matches_iff {i : Instr} {w : TxnWord} :
    i.row.matches w = true ↔ ∃ j, decode w = .ok j ∧ j.bare = i.bare := by
  simp only [row_matches_iff_fields, and_offMask_eq_iff, decode_eq_ok_iff, Instr.bare_eq_iff]
  constructor
  · rintro ⟨hkind, ⟨r, hr, hbare⟩, hdata⟩
    cases hi : i.writeData with
    | none => exact ⟨r.read, by simp [hkind, hr, hdata hi, hbare, Instr.kind, hi]⟩
    | some v => exact ⟨r.write (txnData w), by simp [hkind, hr, hbare, Instr.kind, hi]⟩
  · rintro ⟨j, ⟨hkind, hreg, hdata⟩, hbare, hwrite⟩
    refine ⟨by rw [hkind, Instr.kind, hwrite, Instr.kind], ⟨_, hreg, hbare⟩, fun hread => ?_⟩
    have hj : j.writeData = none := by simpa [hread] using hwrite
    rw [hdata, hj, Option.getD_none]

/-- The transactions of the rows of R77, in its order. -/
def rowInstrs : List Instr :=
  [.wrGate 0#32, .rdGate, .wrTimCtrl 0#32, .rdTimCtrl, .wrTimChcfg 0#32, .rdTimChcfg, .wrTimPsc 0#32, .rdTimPsc,
    .wrTimArr 0#32, .rdTimArr, .wrTimCcr 0#32, .rdTimCcr, .rdTimCnt, .wrTimCnt 0#32, .wrPincfg 0 0#32, .rdPincfg 0]

theorem opcodeTable_eq : opcodeTable = rowInstrs.map Instr.row := by decide

theorem bare_mem_rowInstrs (i : Instr) : i.bare ∈ rowInstrs := by
  cases i <;> simp [Instr.bare, Instr.writeData, Instr.reg, Reg.bare, Reg.write, Reg.read, rowInstrs]

theorem bare_eq_self_of_mem {i : Instr} (h : i ∈ rowInstrs) : i.bare = i := by
  have hall : ∀ j ∈ rowInstrs, j.bare = j := by decide
  exact hall i h

/-- The mnemonic says which row. -/
theorem bare_eq_iff_mnemonic_eq {i j : Instr} : j.bare = i.bare ↔ j.mnemonic = i.mnemonic := by
  have hnodup : (rowInstrs.map Instr.mnemonic).Nodup := by decide
  refine ⟨fun h => by rw [← j.bare_mnemonic, h, i.bare_mnemonic], fun h => ?_⟩
  exact List.inj_on_of_nodup_map hnodup (bare_mem_rowInstrs j) (bare_mem_rowInstrs i) (by simpa using h)

/-- Every row is that of a transaction with its operands 0. -/
theorem exists_row_of_mem {r : OpcodeRow} (h : r ∈ opcodeTable) : ∃ i ∈ rowInstrs, i.row = r := by
  rwa [opcodeTable_eq, List.mem_map] at h

theorem matches_iff_decode_mnemonic {r : OpcodeRow} (hr : r ∈ opcodeTable) (w : TxnWord) :
    r.matches w = true ↔ ∃ i, decode w = .ok i ∧ i.mnemonic = r.mnemonic := by
  obtain ⟨i, -, rfl⟩ := exists_row_of_mem hr
  simp only [row_matches_iff, bare_eq_iff_mnemonic_eq]
  rfl

/-- Two rows that one word matches are the row of the transaction it decodes to. -/
theorem opcodeTable_disjoint :
    opcodeTable.Pairwise fun a b => ∀ w : TxnWord, ¬ (a.matches w = true ∧ b.matches w = true) := by
  have hnodup : rowInstrs.Nodup := by decide
  rw [opcodeTable_eq, List.pairwise_map]
  refine hnodup.imp_of_mem fun {a b} ha hb hne w ⟨hma, hmb⟩ => hne ?_
  obtain ⟨i, hi, hia⟩ := row_matches_iff.mp hma
  obtain ⟨j, hj, hjb⟩ := row_matches_iff.mp hmb
  obtain rfl := Except.ok.inj (hi.symm.trans hj)
  rw [← bare_eq_self_of_mem ha, ← hia, hjb, bare_eq_self_of_mem hb]

/-- A word that decodes matches the row of its transaction. -/
theorem exists_row_of_decode_eq_ok {w : TxnWord} {i : Instr} (h : decode w = .ok i) :
    ∃ r ∈ opcodeTable, r.matches w = true := by
  refine ⟨i.bare.row, ?_, row_matches_iff.mpr ⟨i, h, (bare_eq_self_of_mem (bare_mem_rowInstrs i)).symm⟩⟩
  rw [opcodeTable_eq]
  exact List.mem_map_of_mem (bare_mem_rowInstrs i)

/-! ### The fields of the offset -/

/-- A field of the offset is the field of the word 32 bits up. -/
theorem extractLsb'_txnOff (w : TxnWord) {lo len : Nat} (h : lo + len ≤ 12) :
    (txnOff w).extractLsb' lo len = w.extractLsb' (32 + lo) len := by
  ext i hi
  simp [txnOff, show lo + i < 12 by omega, ← Nat.add_assoc]

/-- A word that matches no row and passes the first three tests has no register at its offset. -/
theorem decode_eq_unmapped_of_no_match {w : TxnWord} (hno : ∀ r ∈ opcodeTable, r.matches w = false)
    (hlegal : ¬ (txnRsv w = true ∨ (txnRw w = false ∧ txnData w ≠ 0#32))) (hsize : txnSize w = 0b10#2)
    (halign : (txnOff w).extractLsb' 0 2 = 0#2) : decode w = .error .unmapped := by
  refine decode_eq_unmapped hlegal hsize halign ?_
  by_contra hsome
  obtain ⟨r, hr⟩ := Option.ne_none_iff_exists'.mp hsome
  obtain ⟨hrsv, hdata⟩ := not_encoding_fault_iff.mp hlegal
  obtain ⟨r', hr', hm⟩ := exists_row_of_decode_eq_ok (decode_eq_ok hrsv hdata hsize halign hr)
  rw [hno r' hr'] at hm
  cases hm

/-- The index of a pin transaction is in bits 37:34 of its word. -/
theorem pinIndex_of_decode_eq_ok {w : TxnWord} {i : Instr} {n : Nat} (h : decode w = .ok i) (hn : i.reg = .pincfg n) :
    n = (w.extractLsb' 34 4).toNat := by
  obtain ⟨-, hreg, -⟩ := decode_eq_ok_iff.mp h
  rw [hn] at hreg
  have hlt : n < 16 := of_decide_eq_true (wellFormed_of_lookup_eq_some (i := .rdPincfg n) hreg)
  have hall : ∀ k : Fin 16, k.val = ((Reg.pincfg k).off.extractLsb' 2 4).toNat := by decide
  rw [← extractLsb'_txnOff w (lo := 2) (by decide), ← off_of_lookup_eq_some hreg]
  exact hall ⟨n, hlt⟩

theorem writeData_of_decode_eq_ok {w : TxnWord} {i : Instr} {v : Word} (h : decode w = .ok i)
    (hv : i.writeData = some v) : v = w.extractLsb' 0 32 := by
  obtain ⟨-, -, hdata⟩ := decode_eq_ok_iff.mp h
  rw [hv] at hdata
  exact hdata.symm

/-- Settles O4: to match a row is to decode to a transaction with that row's mnemonic, so no word matches two, and one that
matches none and passes the first three tests does not decode for want of a register at its offset. -/
theorem opcodeMapMatchesDecoder : Obligations.OpcodeMapMatchesDecoder :=
  ⟨fun w _ hr => matches_iff_decode_mnemonic hr w, opcodeTable_disjoint,
    fun w hno hlegal hsize halign =>
      decode_eq_unmapped_of_no_match hno hlegal hsize ((extractLsb'_txnOff w (by decide)).trans halign),
    fun _ _ h => ⟨fun _ hv => writeData_of_decode_eq_ok h hv, fun _ hn => pinIndex_of_decode_eq_ok h hn⟩⟩

end Sys2Proof
end

section
/-! PROOFS. The step of a decoded word (30_encoding.md R76), and `SETBITS GATE` as a program (30_encoding.md R91,
40_clock_gate.md R101): TICKs leave the gates alone, so the read returns the gates as they were, and the write of that value
with the bits of `m` set finds them as the read left them. -/

namespace Sys2Proof.Machine

/-- Settles O47: the step of a word that decodes. -/
theorem stepRunsDecodedInstruction : Obligations.StepRunsDecodedInstruction := fun _ _ _ _ hf hi hd =>
  step_txn hf hi hd

/-! ### Runs of TICKs leave the gates and the record alone -/

@[simp] theorem ticks_timClkEn (k : Nat) (s : State) : (ticks k s).timClkEn = s.timClkEn := by
  obtain ⟨p, c, d, e⟩ := ticks_frame k s
  rw [e]

@[simp] theorem ticks_gpioClkEn (k : Nat) (s : State) : (ticks k s).gpioClkEn = s.gpioClkEn := by
  obtain ⟨p, c, d, e⟩ := ticks_frame k s
  rw [e]

@[simp] theorem ticks_faultRecord (k : Nat) (s : State) : (ticks k s).faultRecord = s.faultRecord := by
  obtain ⟨p, c, d, e⟩ := ticks_frame k s
  rw [e]

@[simp] theorem State.at_timClkEn (s : State) (rest : List Input) (n : Nat) : (s.at rest n).timClkEn = s.timClkEn := rfl
@[simp] theorem State.at_gpioClkEn (s : State) (rest : List Input) (n : Nat) : (s.at rest n).gpioClkEn = s.gpioClkEn := rfl
@[simp] theorem State.at_faultRecord (s : State) (rest : List Input) (n : Nat) :
    (s.at rest n).faultRecord = s.faultRecord := rfl

/-! ### The first line of a run, as what its transaction does -/

/-- After some TICKs the first line's transaction is executed: it completes and the run goes on, or its fault is the
outcome. -/
theorem Runs.first_exec {e : Env} {l : Line} {ls : List Line} {s : State} {o : Result} {i : Instr}
    (h : Runs e 0 (l :: ls) s o) (hf : s.faultRecord = none) (hl : l.instr e = some i) (hwf : i.WellFormed) :
    ∃ b rest n,
      (∃ t, exec i ((ticks b s).at rest n) = .next t ∧ Runs (l.bind t e) 0 ls t o) ∨
      (∃ f, exec i ((ticks b s).at rest n) = .fault f ∧ o = .fault f) := by
  obtain ⟨b, rest, -, -, hcase⟩ := h.first hf hl
  have hstep := step_txn (s := (ticks b s).at (.txn (encode i) :: rest) (s.steps + b))
    ((ticks_faultRecord b s).trans hf) rfl (decode_encode hwf)
  rw [hstep] at hcase
  exact ⟨b, rest, _, hcase⟩

/-- The outcome of a run of one line is that of its transaction after some TICKs. -/
theorem Runs.last_exec {e : Env} {l : Line} {s : State} {o : Result} {i : Instr} (h : Runs e 0 [l] s o)
    (hf : s.faultRecord = none) (hl : l.instr e = some i) (hwf : i.WellFormed) :
    ∃ b rest n, o = exec i ((ticks b s).at rest n) := by
  obtain ⟨b, rest, n, ⟨t, ht, hrun⟩ | ⟨f, ht, rfl⟩⟩ := h.first_exec hf hl hwf
  · exact ⟨b, rest, n, hrun.of_nil.trans ht.symm⟩
  · exact ⟨b, rest, n, ht.symm⟩

/-- A run whose first input is the first line's word, with a transaction that completes. -/
theorem Runs.of_exec {e : Env} {l : Line} {ls : List Line} {s t : State} {rest : List Input} {o : Result} {i : Instr}
    (hl : l.instr e = some i) (hwf : i.WellFormed) (hf : s.faultRecord = none)
    (hi : s.inputs = .txn (encode i) :: rest) (hx : exec i (s.advance rest) = .next t)
    (h : Runs (l.bind t e) 0 ls t o) : Runs e 0 (l :: ls) s o :=
  .op hl hi ((step_txn hf hi (decode_encode hwf)).trans hx) h

/-! ### The value `SETBITS GATE` writes -/

/-- The two gates with the bits of `m` set, as the data of a `GATE` write. -/
def setBitsData (tim gpio : Bool) (m : Nat) : Word := twoFlagsData tim gpio ||| BitVec.ofNat 32 m

@[simp] theorem setBitsData_getLsbD_zero (tim gpio : Bool) (m : Nat) :
    (setBitsData tim gpio m).getLsbD 0 = (tim || m.testBit 0) := by
  have h : ∀ a b, (twoFlagsData a b).getLsbD 0 = a := by decide
  rw [setBitsData, BitVec.getLsbD_or, h, BitVec.getLsbD_ofNat]
  simp

@[simp] theorem setBitsData_getLsbD_one (tim gpio : Bool) (m : Nat) :
    (setBitsData tim gpio m).getLsbD 1 = (gpio || m.testBit 1) := by
  have h : ∀ a b, (twoFlagsData a b).getLsbD 1 = b := by decide
  rw [setBitsData, BitVec.getLsbD_or, h, BitVec.getLsbD_ofNat]
  simp

/-- The value has no reserved bit exactly when `m` has none. -/
theorem setBitsData_unreserved_iff (tim gpio : Bool) {m : Nat} (hm : m < 2 ^ 32) :
    (setBitsData tim gpio m).extractLsb' 2 30 = 0#30 ↔ m < 4 := by
  have h : ∀ a b, (twoFlagsData a b).extractLsb' 2 30 = 0#30 := by decide
  rw [setBitsData, BitVec.extractLsb'_or, h, BitVec.zero_or, ← BitVec.toNat_inj, BitVec.extractLsb'_toNat,
    BitVec.toNat_ofNat, BitVec.toNat_ofNat, Nat.shiftRight_eq_div_pow]
  omega

/-- With no reserved bit in `m` the write completes, because it clears no gate. -/
theorem execWrGate_setBitsData {s : State} {tim gpio : Bool} {m : Nat} (htim : s.timClkEn = tim)
    (hgpio : s.gpioClkEn = gpio) (hm : m < 4) : exec (.wrGate (setBitsData tim gpio m)) s =
      .next (s.setGate (tim || m.testBit 0) (gpio || m.testBit 1)) := by
  subst htim hgpio
  refine execWrGate_next.mpr ⟨(setBitsData_unreserved_iff _ _ (by omega)).mpr hm, fun h => ?_, fun h => ?_, ?_⟩
  · rw [setBitsData_getLsbD_zero, h, Bool.true_or]
  · rw [setBitsData_getLsbD_one, h, Bool.true_or]
  · rw [setBitsData_getLsbD_zero, setBitsData_getLsbD_one]

/-- A `GATE` write with a reserved bit faults F7 (40_clock_gate.md R100). -/
theorem execWrGate_of_reserved {v : Word} (s : State) (h : v.extractLsb' 2 30 ≠ 0#30) :
    exec (.wrGate v) s = .fault (.reserved (encode (.wrGate v))) := by
  simp only [exec, execWrGate, twoFlagsOfData_eq_none.mpr h, demand_none]

/-! ### Its runs -/

/-- The write of `SETBITS GATE, m` after a read that returned the two gates. -/
theorem instr_setBits_gate_write (e : Env) {t : State} {tim gpio : Bool} {m : Nat} (hm : m < 2 ^ 32)
    (ht : t.readData = some (twoFlagsData tim gpio)) :
    (Line.wr .gate (.or (.name "t") (.num m))).instr ((Line.rd .gate "t").bind t e) =
      some (.wrGate (setBitsData tim gpio m)) := by
  rw [Line.bind, ht]
  exact instr_setBits_write .gate e _ m hm

/-- Every run of `SETBITS GATE, m` comes to the write of its value, on a state with the gates of the start. -/
theorem Runs.setBits_gate {e : Env} {m : Nat} {s : State} {o : Result} (h : Runs e 0 (setBitsLines .gate (.num m)) s o)
    (hf : s.faultRecord = none) (hm : m < 2 ^ 32) : ∃ u : State, u.timClkEn = s.timClkEn ∧ u.gpioClkEn = s.gpioClkEn ∧
      o = exec (.wrGate (setBitsData s.timClkEn s.gpioClkEn m)) u := by
  obtain ⟨b, rest, n, ⟨t, ht, hrun⟩ | ⟨f, ht, -⟩⟩ := h.first_exec hf (i := .rdGate) rfl rfl
  · obtain rfl := execRdGate_next.mp ht
    obtain ⟨b', rest', n', ho⟩ := hrun.last_exec (by simpa) (instr_setBits_gate_write e hm rfl) rfl
    simp only [State.at_timClkEn, State.at_gpioClkEn, ticks_timClkEn, ticks_gpioClkEn] at ho
    exact ⟨_, by simp, by simp, ho⟩
  · exact absurd ht (answer_ne_fault _ _ f)

/-- With nothing but its two words at the port `SETBITS GATE, m` runs to its end. -/
theorem runs_setBits_gate (e : Env) {m : Nat} {s : State} {rest : List Input} (hf : s.faultRecord = none) (hm : m < 4)
    (hi : s.inputs = .txn (encode .rdGate) :: .txn (encode (.wrGate (setBitsData s.timClkEn s.gpioClkEn m))) :: rest) :
    ∃ t, Runs e 0 (setBitsLines .gate (.num m)) s (.next t) :=
  ⟨_, .of_exec rfl rfl hf hi (execRdGate_next.mpr rfl) <|
    .of_exec (instr_setBits_gate_write e (by omega) rfl) rfl hf rfl (execWrGate_setBitsData rfl rfl hm) .done⟩

/-- Settles O59: the write's data is the gates the read found, with the bits of `m` set, so it clears none and faults exactly
when `m` has a reserved bit. -/
theorem setBitsKeepsOtherGate : Obligations.SetBitsKeepsOtherGate := by
  refine ⟨fun e m s o hf h => ⟨fun hm => ?_, fun hm hlt => ?_⟩, fun e m s rest hm hf => ?_⟩
  · obtain ⟨u, htim, hgpio, rfl⟩ := h.setBits_gate hf (by omega)
    exact ⟨_, execWrGate_setBitsData htim hgpio hm, rfl, rfl⟩
  · obtain ⟨u, -, -, rfl⟩ := h.setBits_gate hf hlt
    exact ⟨_, execWrGate_of_reserved u fun h0 => absurd ((setBitsData_unreserved_iff _ _ hlt).mp h0) (by omega)⟩
  · exact ⟨encode (.wrGate (setBitsData s.timClkEn s.gpioClkEn m)), runs_setBits_gate e hf hm rfl⟩

end Sys2Proof.Machine
end

section
/-! PROOFS. Clock gates (40_clock_gate.md R100 to R104): the two gate transactions, the gate check that begins every other
transaction, the frame of every transaction, and from these three that only a reset clears a gate and that a gated-off block
stays in its reset state. -/

namespace Sys2Proof.Machine

/-! ### The gate transactions -/

/-- A `GATE` write without a reserved bit that has 0 where a gate is 1 faults F9 (40_clock_gate.md R101). -/
theorem execWrGate_of_clear {v : Word} {s : State} (hv : v.extractLsb' 2 30 = 0#30)
    (h : (s.timClkEn = true ∧ v.getLsbD 0 = false) ∨ (s.gpioClkEn = true ∧ v.getLsbD 1 = false)) :
    exec (.wrGate v) s = .fault (.gateClear (encode (.wrGate v))) := by
  simp only [exec, execWrGate, twoFlagsOfData_eq_some.mpr ⟨hv, rfl⟩, demand_some]
  exact require_neg (not_not.mpr h) _ _

/-- Settles O7: the two checks of the write in their order, and what it does when both pass. -/
theorem writeGateSetsBothGates : Obligations.WriteGateSetsBothGates := fun _ s =>
  ⟨rfl, execWrGate_of_reserved s, execWrGate_of_clear, fun hv htim hgpio => execWrGate_next.mpr ⟨hv, htim, hgpio, rfl⟩⟩

/-- Settles O8: the read has no check, so it always answers. -/
theorem readGateReturnsGates : Obligations.ReadGateReturnsGates := fun _ =>
  ⟨rfl, execRdGate_next.mpr rfl⟩

/-! ### The gate check -/

/-- Every transaction of a timer register begins with the check of `TIMCLKEN`. -/
theorem exec_eq_requireTimerClock {i : Instr} (h : i.reg.isTimer = true) (s : State) :
    ∃ k, exec i s = requireTimerClock i s k := by
  cases i with
  | wrGate | rdGate | wrPincfg | rdPincfg => cases h
  | _ => exact ⟨_, rfl⟩

/-- Every transaction of a pin register begins with the checks of the index and of `GPIOCLKEN`. -/
theorem exec_eq_requirePin {i : Instr} {n : Nat} (h : i.reg = .pincfg n) (s : State) :
    ∃ k, exec i s = requirePin i n s k := by
  cases i with
  | wrPincfg | rdPincfg => cases h; exact ⟨_, rfl⟩
  | _ => cases h

/-- Settles O10: the transaction begins with its block's gate check, which fails. -/
theorem gatedAccessFaults : Obligations.GatedAccessFaults := by
  refine fun i s => ⟨fun hi hoff => ?_, fun n hi hn hoff => ?_⟩
  · obtain ⟨k, hk⟩ := exec_eq_requireTimerClock hi s
    exact hk.trans (requireTimerClock_eq_fault.mpr (.inl ⟨hoff, rfl⟩))
  · obtain ⟨k, hk⟩ := exec_eq_requirePin hi s
    exact hk.trans (requirePin_eq_fault.mpr (.inr (.inl ⟨hn, hoff, rfl⟩)))

theorem timClkEn_of_exec_timer {i : Instr} {s t : State} (hi : i.reg.isTimer = true) (h : exec i s = .next t) :
    s.timClkEn = true := by
  obtain ⟨k, hk⟩ := exec_eq_requireTimerClock hi s
  exact (requireTimerClock_eq_next.mp (hk.symm.trans h)).1

theorem gpioClkEn_of_exec_pincfg {i : Instr} {n : Nat} {s t : State} (hi : i.reg = .pincfg n) (h : exec i s = .next t) :
    s.gpioClkEn = true := by
  obtain ⟨k, hk⟩ := exec_eq_requirePin hi s
  exact (requirePin_eq_next.mp (hk.symm.trans h)).2.1

/-! ### The frame of a transaction -/

/-- Settles O33: a read changes only the data returned; a write that completes is its register's one update, whose other
fields are as before. -/
theorem transactionsTouchOnlyTheirRegister : Obligations.TransactionsTouchOnlyTheirRegister := by
  intro i s t h
  cases hw : i.writeData with
  | none =>
    obtain ⟨d, rfl⟩ := setReadData_of_exec_read (eq_read_of_writeData hw ▸ h)
    simp
  | some v =>
    obtain ⟨r, rfl⟩ : ∃ r : Reg, i = r.write v := ⟨_, eq_write_of_writeData hw⟩
    cases r with
    | gate =>
      obtain ⟨-, -, -, rfl⟩ := execWrGate_next.mp h
      simp
    | timCtrl =>
      obtain ⟨-, -, -, -, rfl⟩ := execWrTimCtrl_next.mp h
      simp
    | timChcfg =>
      obtain ⟨-, -, m, f, -, rfl⟩ := execWrTimChcfg_next.mp h
      simp
    | timPsc =>
      obtain ⟨-, -, -, rfl⟩ := execWrTimPsc_next.mp h
      simp
    | timArr =>
      obtain ⟨-, -, rfl⟩ := execWrTimArr_next.mp h
      simp
    | timCcr =>
      obtain ⟨-, rfl⟩ := execWrTimCcr_next.mp h
      split <;> simp
    | timCnt => exact absurd h (execWrTimCnt_ne_next v s t)
    | pincfg n =>
      obtain ⟨-, -, c, -, rfl⟩ := execWrPincfg_next.mp h
      simp +contextual [State.setPin_pin_ne]

/-! ### Only a reset clears a gate -/

/-- No transaction clears a set gate: a write of `GATE` checks it, and no other transaction touches the gates. -/
theorem exec_keeps_gates_set {i : Instr} {s t : State} (h : exec i s = .next t) :
    (s.timClkEn = true → t.timClkEn = true) ∧ (s.gpioClkEn = true → t.gpioClkEn = true) := by
  by_cases hi : i.reg ≠ .gate ∨ i.writeData = none
  · obtain ⟨hgates, -⟩ := transactionsTouchOnlyTheirRegister i s t h
    obtain ⟨htim, hgpio⟩ := hgates hi
    exact ⟨htim.trans, hgpio.trans⟩
  · obtain ⟨hreg, hwrite⟩ := not_or.mp hi
    obtain ⟨v, hv⟩ := Option.ne_none_iff_exists'.mp hwrite
    obtain rfl : i = .wrGate v := (eq_write_of_writeData hv).trans (congrArg (Reg.write · v) (not_not.mp hreg))
    obtain ⟨-, htim, hgpio, rfl⟩ := execWrGate_next.mp h
    exact ⟨htim, hgpio⟩

/-- Settles O9: the write's own check, what each kind of step does to the gates, and the reset step. -/
theorem setGatesStaySetUntilReset : Obligations.SetGatesStaySetUntilReset := by
  refine ⟨fun v s hv hclear => ?_, fun s t h hreset => ?_, fun s rest hf hi => ?_⟩
  · rw [execWrGate_of_clear hv hclear, landing_fault]
    rfl
  · obtain ⟨-, ⟨rest, -, rfl⟩ | ⟨rest, hi, -⟩ | ⟨w, rest, i, -, -, hx⟩⟩ := step_next_cases h
    · exact ⟨(ticks_timClkEn 1 (s.advance rest)).trans, (ticks_gpioClkEn 1 (s.advance rest)).trans⟩
    · exact absurd hi (hreset rest)
    · simpa only [State.advance_timClkEn, State.advance_gpioClkEn] using exec_keeps_gates_set hx
  · exact ⟨(s.advance rest).resetStep, by simp only [step, hf, hi], rfl, rfl⟩

/-! ### A gated-off block is in its reset state -/

/-- Settles O57: the reset state's registers, and its pins by the law of the bank. -/
theorem gatedBlocksIdleAtReset : Obligations.GatedBlocksIdleAtReset where
  timer _ := ⟨rfl, rfl, rfl, rfl, rfl, rfl, rfl, rfl, rfl, rfl⟩
  gpio _ := State.reset_pin

theorem gatedBlocksIdle_resetStep (s : State) : s.resetStep.GatedBlocksIdle where
  timer := gatedBlocksIdleAtReset.timer
  gpio := gatedBlocksIdleAtReset.gpio

theorem gatedBlocksIdle_advance {s : State} (h : s.GatedBlocksIdle) (rest : List Input) :
    (s.advance rest).GatedBlocksIdle where
  timer := h.timer
  gpio := h.gpio

/-- A TICK does nothing to a gated-off timer (40_clock_gate.md R104), and nothing to the pins in any state. -/
theorem gatedBlocksIdle_tick {s : State} (h : s.GatedBlocksIdle) : (tick s).GatedBlocksIdle where
  timer hoff := by
    have hs : s.timClkEn = false := (ticks_timClkEn 1 s).symm.trans hoff
    have hcounting : s.counting = false := by rw [State.counting, hs, Bool.false_and]
    rw [tick_idle hcounting]
    exact h.timer hs
  gpio := by
    obtain ⟨p, c, d, e⟩ := tick_frame s
    rw [e]
    exact h.gpio

/-- A gate that is off after a transaction was off before it, so the transaction went to another block and left this one
alone. -/
theorem gatedBlocksIdle_exec {i : Instr} {s t : State} (h : s.GatedBlocksIdle) (hx : exec i s = .next t) :
    t.GatedBlocksIdle := by
  obtain ⟨-, hctrl, hchcfg, hpsc, harr, hccr, hpin, -, hcnt, hpcnt, -⟩ := transactionsTouchOnlyTheirRegister i s t hx
  obtain ⟨htim, hgpio⟩ := exec_keeps_gates_set hx
  refine ⟨fun hoff => ?_, fun hoff n => ?_⟩
  · have hs : s.timClkEn = false := Bool.eq_false_of_not_eq_true fun hon => ne_true_of_eq_false hoff (htim hon)
    have hreg (r : Reg) (hr : r.isTimer = true) : i.reg ≠ r := fun e =>
      ne_true_of_eq_false hs (timClkEn_of_exec_timer (e ▸ hr) hx)
    simpa only [hctrl (.inl (hreg _ rfl)), hchcfg (.inl (hreg _ rfl)), hpsc (.inl (hreg _ rfl)),
      harr (.inl (hreg _ rfl)), hccr (.inl (hreg _ rfl)), hcnt, hpcnt] using h.timer hs
  · have hs : s.gpioClkEn = false := Bool.eq_false_of_not_eq_true fun hon => ne_true_of_eq_false hoff (hgpio hon)
    have hreg : i.reg ≠ .pincfg n := fun e => ne_true_of_eq_false hs (gpioClkEn_of_exec_pincfg e hx)
    exact (hpin n (.inl hreg)).trans (h.gpio hs n)

/-- Settles O58: a step is a TICK, a reset or a transaction, and each keeps the invariant. -/
theorem stepKeepsGatedBlocksIdle : Obligations.StepKeepsGatedBlocksIdle := by
  intro s t h hstep
  obtain ⟨-, ⟨rest, -, rfl⟩ | ⟨rest, -, rfl⟩ | ⟨w, rest, i, -, -, hx⟩⟩ := step_next_cases hstep
  · exact gatedBlocksIdle_tick (gatedBlocksIdle_advance h rest)
  · exact gatedBlocksIdle_resetStep (s.advance rest)
  · exact gatedBlocksIdle_exec (gatedBlocksIdle_advance h rest) hx

end Sys2Proof.Machine
end

section
/-! PROOFS. The pin multiplexer (41_pin_mux.md R110 to R119): the two pin transactions, their faults in order and the
fields that pass through the data word; a pin's level as a function of its configuration and `TOUT`; and that a pin write
and a timer transaction touch disjoint state, so that their order does not matter. -/

namespace Sys2Proof.Machine

/-! ### The checks of a pin transaction -/

/-- A pin transaction with an index outside the bank faults F4 (60_exceptions.md R204). -/
theorem exec_pincfg_of_unmapped {i : Instr} {n : Nat} (hi : i.reg = .pincfg n) (hn : Config.npins ≤ n) (s : State) :
    exec i s = .fault (.unmapped (encode i)) := by
  obtain ⟨k, hk⟩ := exec_eq_requirePin hi s
  exact hk.trans (requirePin_eq_fault.mpr (.inl ⟨hn, rfl⟩))

/-- A `PINCFG` write that passes both checks faults F7 on a reserved bit, MODE or PULL (60_exceptions.md R207). -/
theorem execWrPincfg_of_reserved {n : Nat} {v : Word} {s : State} (hn : n < Config.npins) (hon : s.gpioClkEn = true)
    (hv : pinOfData v = none) : exec (.wrPincfg n v) s = .fault (.reserved (encode (.wrPincfg n v))) :=
  requirePin_eq_fault.mpr (.inr (.inr ⟨hn, hon, demand_eq_fault.mpr (.inl ⟨hv, rfl⟩)⟩))

/-- The pin operand of an index of the bank is the index in its field (30_encoding.md R71). -/
theorem pinBits_of_lt_npins {n : Nat} (hn : n < Config.npins) : pinBits n = BitVec.ofNat 48 n <<< 34 :=
  pinBits_of_lt (Nat.lt_trans hn (by decide))

/-! ### The fields in the data word -/

/-- A write value with no reserved bit and legal MODE and PULL is that of some configuration. -/
theorem exists_pinOfData_eq_some {v : Word} (hhigh : v.extractLsb' 12 20 = 0#20) (h7 : v.getLsbD 7 = false)
    (hmode : v.extractLsb' 0 2 = 0b00#2 ∨ v.extractLsb' 0 2 = 0b10#2) (hpull : v.extractLsb' 3 2 ≠ 0b11#2) :
    ∃ c, pinOfData v = some c := by
  have hlegal : ∀ b : BitVec 2, b = 0b00#2 ∨ b = 0b10#2 → b ≠ 0b01#2 ∧ b ≠ 0b11#2 := by decide
  refine Option.ne_none_iff_exists'.mp fun hnone => ?_
  obtain h | h | h | h | h := pinOfData_eq_none.mp hnone
  · exact h hhigh
  · exact ne_true_of_eq_false h7 h
  · exact (hlegal _ hmode).1 h
  · exact (hlegal _ hmode).2 h
  · exact hpull h

/-- The read data of a configuration is a write value that stores it again: each field stands in its place and the
reserved bits are 0 (41_pin_mux.md R111). -/
theorem pinOfData_pinData (c : PinCfg) : pinOfData (pinData c) = some c := by
  rw [pinOfData_eq_some, BitVec.getLsbD_eq_extractLsb']
  simp (disch := decide) only [pinData, BitVec.extractLsb'_setWidth_of_le, BitVec.extractLsb'_append_eq_of_le,
    BitVec.extractLsb'_append_eq_of_add_le, BitVec.extractLsb'_eq_self, Nat.reduceSub, and_true]
  refine ⟨?_, rfl⟩
  ext i hi
  rw [BitVec.getElem_extractLsb', BitVec.getLsbD_of_ge _ _ (Nat.le_add_right 4 i), BitVec.getElem_zero]

/-- Settles O11: the two checks and the demand of the write in their order; the value that passes is that of the
configuration stored. -/
theorem writePincfgStoresFields : Obligations.WritePincfgStoresFields := by
  refine fun n v s => ⟨fun hn => ?_, fun hn => exec_pincfg_of_unmapped rfl hn s, (gatedAccessFaults _ s).2 n rfl,
    fun hn hon hres => execWrPincfg_of_reserved hn hon (pinOfData_eq_none.mpr hres),
    fun hn hon hhigh h7 hmode hpull => ?_⟩
  · rw [encode, pinBits_of_lt_npins hn, dataBits]
  · obtain ⟨c, hc⟩ := exists_pinOfData_eq_some hhigh h7 hmode hpull
    obtain ⟨-, -, hfields⟩ := pinOfData_eq_some.mp hc
    exact ⟨c, execWrPincfg_next.mpr ⟨hn, hon, c, hc, rfl⟩, s.setPin_pin_self hn c,
      fun m hm => s.setPin_pin_ne hm.symm c, hfields⟩

/-- Settles O12: the two checks of the read, and what its data tells of the pin when read back as a write value. -/
theorem readPincfgReturnsFields : Obligations.ReadPincfgReturnsFields := by
  refine fun n s => ⟨fun hn => ?_, fun hn => exec_pincfg_of_unmapped rfl hn s, (gatedAccessFaults _ s).2 n rfl,
    fun hn hon => ?_⟩
  · rw [encode, pinBits_of_lt_npins hn]
  · obtain ⟨hhigh, h7, hmode, hotype, hpull, hspeed, haf⟩ := pinOfData_eq_some.mp (pinOfData_pinData (s.pin n))
    exact ⟨_, execRdPincfg_next.mpr ⟨hn, hon, rfl⟩, hmode.symm, hotype.symm, hpull.symm, hspeed.symm, h7, haf.symm,
      hhigh⟩

/-! ### The level of a pin -/

/-- The pull level by the two pulls there are (41_pin_mux.md R112). -/
theorem pullLevel_eq (c : PinCfg) :
    pullLevel c = if c.pull = .noPull then .floating else if c.pull = .up then .high else .low := by
  unfold pullLevel
  cases c.pull <;> rfl

/-- The level of a pin that the timer's output reaches (41_pin_mux.md R113 to R115). -/
theorem pinLevel_of_timer {s : State} {n : Nat} (k : Nat) (hmode : (s.pin n).mode = .alternate)
    (hn : n = Config.timPin.val) (haf : (s.pin n).af = Config.timAf) :
    pinLevel k s n =
      if tout s = false then .low else if (s.pin n).otype = .pushPull then .high else pullLevel (s.pin n) := by
  simp only [pinLevel, pinLevelWith, hmode, if_pos (And.intro hn haf)]
  cases (s.pin n).otype <;> rfl

/-- Settles O13: the input pin by the model's rule for it, the timer's pin by the three cases of its output stage. -/
theorem timerPinFollowsOutput : Obligations.TimerPinFollowsOutput := by
  refine fun k n s => ⟨fun hmode => ?_, fun hmode hn haf => ⟨fun hout => ?_, fun hout hty => ?_, fun hout hty => ?_⟩⟩
  · rw [pinLevel_of_input k hmode, pullLevel_eq]
  · rw [pinLevel_of_timer k hmode hn haf, if_pos hout]
  · rw [pinLevel_of_timer k hmode hn haf, if_neg (by simp [hout]), if_pos hty]
  · rw [pinLevel_of_timer k hmode hn haf, if_neg (by simp [hout]), if_neg (by simp [hty]), pullLevel_eq]

/-- Settles O14: the pin is in the case of R118 that the binding does not cover. -/
theorem otherFunctionPinIsFree : Obligations.OtherFunctionPinIsFree := fun k n s hmode hother => by
  simp only [pinLevel, pinLevelWith, hmode, if_neg hother]

/-- The timer's output does not depend on the pins (43_counter_compare.md R171). -/
@[simp] theorem tout_setPin (s : State) (n : Nat) (c : PinCfg) : tout (s.setPin n c) = tout s := rfl

/-- A pin's level depends on `TOUT` and on the fields of its configuration other than SPEED (41_pin_mux.md R118). -/
theorem pinLevelWith_congr {s t : State} {m : Nat} (timPin : Nat) (timAf : BitVec 4) (draw : Level)
    (hout : tout s = tout t) (sp : PinSpeed) (hpin : { s.pin m with speed := sp } = { t.pin m with speed := sp }) :
    pinLevelWith timPin timAf draw s m = pinLevelWith timPin timAf draw t m := by
  obtain ⟨hmode, hotype, hpull, -, haf⟩ := PinCfg.mk.inj hpin
  simp only [pinLevelWith, pullLevel, hmode, hotype, hpull, haf, hout]

/-- Settles O15: the two states have the same `TOUT` and pin configurations that differ at most in SPEED; the read data
gives the stored field back. -/
theorem speedNeverChangesLevel : Obligations.SpeedNeverChangesLevel := by
  refine fun s n c sp hn => ⟨fun timPin timAf draw m => ?_, ?_, fun hon => ?_⟩
  · refine pinLevelWith_congr timPin timAf draw (by rw [tout_setPin, tout_setPin]) sp ?_
    by_cases hm : n = m
    · subst hm
      rw [s.setPin_pin_self hn, s.setPin_pin_self hn]
    · rw [s.setPin_pin_ne hm, s.setPin_pin_ne hm]
  · rw [s.setPin_pin_self hn]
  · obtain ⟨-, -, -, -, -, hspeed, -⟩ := pinOfData_eq_some.mp (pinOfData_pinData { c with speed := sp })
    refine ⟨_, execRdPincfg_next.mpr ⟨hn, hon, rfl⟩, ?_⟩
    rw [s.setPin_pin_self hn, ← hspeed]

/-! ### Pin writes and timer transactions -/

/-- A timer transaction reads and writes no pin: what it does after a pin write it does without it, and the pin write
can follow. -/
theorem exec_timer_of_exec_setPin {i : Instr} {s u : State} {n : Nat} {c : PinCfg} (hi : i.reg.isTimer = true)
    (h : exec i (s.setPin n c) = .next u) : ∃ t, exec i s = .next t ∧ u = t.setPin n c := by
  cases i with
  | wrGate | rdGate | wrPincfg | rdPincfg => cases hi
  | wrTimCtrl v =>
    obtain ⟨hclk, hv, hstart, hroute, rfl⟩ := execWrTimCtrl_next.mp h
    exact ⟨_, execWrTimCtrl_next.mpr ⟨hclk, hv, hstart, hroute, rfl⟩, rfl⟩
  | rdTimCtrl =>
    obtain ⟨hclk, rfl⟩ := execRdTimCtrl_next.mp h
    exact ⟨_, execRdTimCtrl_next.mpr ⟨hclk, rfl⟩, rfl⟩
  | wrTimChcfg v =>
    obtain ⟨hclk, hcen, m, f, hv, rfl⟩ := execWrTimChcfg_next.mp h
    exact ⟨_, execWrTimChcfg_next.mpr ⟨hclk, hcen, m, f, hv, rfl⟩, rfl⟩
  | rdTimChcfg =>
    obtain ⟨hclk, rfl⟩ := execRdTimChcfg_next.mp h
    exact ⟨_, execRdTimChcfg_next.mpr ⟨hclk, rfl⟩, rfl⟩
  | wrTimPsc v =>
    obtain ⟨hclk, hcen, hv, rfl⟩ := execWrTimPsc_next.mp h
    exact ⟨_, execWrTimPsc_next.mpr ⟨hclk, hcen, hv, rfl⟩, rfl⟩
  | rdTimPsc =>
    obtain ⟨hclk, p, hp, rfl⟩ := execRdTimPsc_next.mp h
    exact ⟨_, execRdTimPsc_next.mpr ⟨hclk, p, hp, rfl⟩, rfl⟩
  | wrTimArr v =>
    obtain ⟨hclk, hcen, rfl⟩ := execWrTimArr_next.mp h
    exact ⟨_, execWrTimArr_next.mpr ⟨hclk, hcen, rfl⟩, rfl⟩
  | rdTimArr =>
    obtain ⟨hclk, a, ha, rfl⟩ := execRdTimArr_next.mp h
    exact ⟨_, execRdTimArr_next.mpr ⟨hclk, a, ha, rfl⟩, rfl⟩
  | wrTimCcr v =>
    obtain ⟨hclk, rfl⟩ := execWrTimCcr_next.mp h
    exact ⟨_, execWrTimCcr_next.mpr ⟨hclk, rfl⟩, by rw [apply_ite (State.setPin · n c)]; rfl⟩
  | rdTimCcr =>
    obtain ⟨hclk, d, hd, rfl⟩ := execRdTimCcr_next.mp h
    exact ⟨_, execRdTimCcr_next.mpr ⟨hclk, d, hd, rfl⟩, rfl⟩
  | rdTimCnt =>
    obtain ⟨hclk, rfl⟩ := execRdTimCnt_next.mp h
    exact ⟨_, execRdTimCnt_next.mpr ⟨hclk, rfl⟩, rfl⟩
  | wrTimCnt v => exact absurd h (execWrTimCnt_ne_next v _ u)

/-- Settles O16: the timer transaction does the same without the pin write, and leaves the gate that the pin write
checks as it was. -/
theorem pinAndTimerSetupCommute : Obligations.PinAndTimerSetupCommute := by
  intro n v i s t u hi hpin htim
  obtain ⟨hn, hon, c, hc, rfl⟩ := execWrPincfg_next.mp hpin
  obtain ⟨t', ht', rfl⟩ := exec_timer_of_exec_setPin hi htim
  have hgate : i.reg ≠ .gate := fun e => by rw [e] at hi; cases hi
  obtain ⟨hgates, -⟩ := transactionsTouchOnlyTheirRegister i s t' ht'
  obtain ⟨-, hgpio⟩ := hgates (.inl hgate)
  exact ⟨t', ht', execWrPincfg_next.mpr ⟨hn, hgpio.trans hon, c, hc, rfl⟩⟩

end Sys2Proof.Machine
end

section
/-! PROOFS. Timer registers (42_timer_registers.md R130 to R145): the check that fails of each transaction, in the order
of its checks, and the state it answers when none does; and that no transaction gets past the lock while `CEN = 1`. -/

namespace Sys2Proof.Machine

/-! ### The checks that follow the gate check -/

section
variable {i : Instr} {s : State} {α : Type} {o : Option α} {f : Fault}

/-- With the timer clocked, a transaction whose first demand is not met faults there. -/
theorem requireTimerClock_demand_of_none {k : α → Result} (hon : s.timClkEn = true) (ho : o = none) :
    requireTimerClock i s (demand o f k) = .fault f :=
  requireTimerClock_eq_fault.mpr (.inr ⟨hon, demand_eq_fault.mpr (.inl ⟨ho, rfl⟩)⟩)

/-- With the timer clocked, a transaction whose first demand is met goes on with what follows it. -/
theorem requireTimerClock_demand_of_some {a : α} {k : α → Result} (hon : s.timClkEn = true) (ho : o = some a) :
    requireTimerClock i s (demand o f k) = k a := by
  rw [requireTimerClock, require_pos hon, ho, demand_some]

/-- A lock check fails while `CEN = 1` (60_exceptions.md R208). -/
theorem require_unlocked_of_cen {k : Result} (hcen : s.cen = true) : require (s.cen = false) f k = .fault f :=
  require_neg (by rw [hcen]; exact Bool.noConfusion) f k

end

/-! ### The conditions of a `TIM_CTRL` write -/

theorem State.starting_eq_true {s : State} {c : Bool} : s.starting c = true ↔ s.cen = false ∧ c = true := by
  simp [State.starting]

theorem State.routing_eq_true {s : State} {c : Bool} : s.routing c = true ↔ s.chen = false ∧ c = true := by
  simp [State.routing]

theorem State.counterReady_eq_false {s : State} :
    s.counterReady = false ↔ s.psc = none ∨ s.arr = none ∨ s.ccrPre = none := by
  simp only [State.counterReady, Bool.and_eq_false_iff, Option.isSome_eq_false_iff, Option.isNone_iff_eq_none, or_assoc]

theorem State.channelReady_eq_false {s : State} : s.channelReady = false ↔ s.arr = none ∨ s.ccrPre = none := by
  simp only [State.channelReady, Bool.and_eq_false_iff, Option.isSome_eq_false_iff, Option.isNone_iff_eq_none]

/-- The comparisons of R132 are of the registers' numbers, and of written registers only. -/
theorem State.degenerate_eq_true {s : State} : s.degenerate = true ↔ ∃ a p, s.arr = some a ∧ s.psc = some p ∧
    (a.toNat = 0 ∨ a.toNat < s.cnt.toNat ∨ p.toNat < s.pcnt.toNat) := by
  have hzero (a : Word) : a = 0#32 ↔ a.toNat = 0 := BitVec.toNat_inj.symm
  unfold State.degenerate
  cases s.arr <;> cases s.psc <;> simp [hzero, BitVec.lt_def, or_assoc]

/-- A start or a routing before the registers it needs are written (42_timer_registers.md R131). -/
def State.Early (s : State) (cen chen : Bool) : Prop :=
  (s.starting cen = true ∧ s.counterReady = false) ∨ (s.routing chen = true ∧ s.channelReady = false)

theorem State.early_iff {s : State} {cen chen : Bool} : s.Early cen chen ↔
    ((s.cen = false ∧ cen = true) ∧ (s.psc = none ∨ s.arr = none ∨ s.ccrPre = none)) ∨
      ((s.chen = false ∧ chen = true) ∧ (s.arr = none ∨ s.ccrPre = none)) := by
  rw [State.Early, State.starting_eq_true, State.routing_eq_true, State.counterReady_eq_false,
    State.channelReady_eq_false]

/-! ### `TIM_CTRL` -/

section
variable {v : Word} {s : State} (hon : s.timClkEn = true) (hv : v.extractLsb' 2 30 = 0#30)
include hon hv

/-- The two checks for `UNWRITTEN`, of the start and of the routing, raise the one fault F10. -/
theorem execWrTimCtrl_of_early (h : s.Early (v.getLsbD 0) (v.getLsbD 1)) :
    exec (.wrTimCtrl v) s = .fault (.unwritten (encode (.wrTimCtrl v))) := by
  refine (requireTimerClock_demand_of_some hon (twoFlagsOfData_eq_some.mpr ⟨hv, rfl⟩)).trans ?_
  by_cases hstart : s.starting (v.getLsbD 0) = true ∧ s.counterReady = false
  · exact require_neg (not_not.mpr hstart) _ _
  · rw [require_pos hstart, require_neg (not_not.mpr (h.resolve_left hstart))]

theorem execWrTimCtrl_of_degenerate (hearly : ¬ s.Early (v.getLsbD 0) (v.getLsbD 1))
    (h : s.starting (v.getLsbD 0) = true ∧ s.degenerate = true) :
    exec (.wrTimCtrl v) s = .fault (.badStart (encode (.wrTimCtrl v))) := by
  obtain ⟨hstart, hroute⟩ := not_or.mp hearly
  refine (requireTimerClock_demand_of_some hon (twoFlagsOfData_eq_some.mpr ⟨hv, rfl⟩)).trans ?_
  rw [require_pos hstart, require_pos hroute, require_neg (not_not.mpr h)]

theorem execWrTimCtrl_of_valid (hearly : ¬ s.Early (v.getLsbD 0) (v.getLsbD 1))
    (h : ¬ (s.starting (v.getLsbD 0) = true ∧ s.degenerate = true)) :
    exec (.wrTimCtrl v) s = .next (s.setCtrl (v.getLsbD 0) (v.getLsbD 1)) := by
  obtain ⟨hstart, hroute⟩ := not_or.mp hearly
  refine (requireTimerClock_demand_of_some hon (twoFlagsOfData_eq_some.mpr ⟨hv, rfl⟩)).trans ?_
  rw [require_pos hstart, require_pos hroute, require_pos h]

end

/-- Settles O17: the gate, the reserved bits, the two checks of R131 and the one of R132, whose conditions the model
computes as flags. -/
theorem writeTimCtrlStartsAndRoutes : Obligations.WriteTimCtrlStartsAndRoutes := by
  intro v s starting routing early bad
  have hearly : s.Early (v.getLsbD 0) (v.getLsbD 1) ↔ early := State.early_iff
  have hbad : s.starting (v.getLsbD 0) = true ∧ s.degenerate = true ↔ bad := by
    rw [State.starting_eq_true, State.degenerate_eq_true]
  rw [← hearly, ← hbad]
  exact ⟨rfl, (gatedAccessFaults _ s).1 rfl,
    fun hon hv => requireTimerClock_demand_of_none hon (twoFlagsOfData_eq_none.mpr hv),
    execWrTimCtrl_of_early, execWrTimCtrl_of_degenerate, execWrTimCtrl_of_valid⟩

/-- Settles O18: the gate is the only check. -/
theorem readTimCtrlReturnsEnables : Obligations.ReadTimCtrlReturnsEnables := fun s =>
  ⟨rfl, (gatedAccessFaults _ s).1 rfl, fun hon => execRdTimCtrl_next.mpr ⟨hon, rfl⟩⟩

/-! ### `TIM_CHCFG` -/

/-- The two reserved encodings of `OCMODE` are those with bit 1 set (10_state.md R28). -/
theorem chcfgOfData_eq_none_iff_getLsbD {v : Word} :
    chcfgOfData v = none ↔ v.extractLsb' 3 29 ≠ 0#29 ∨ v.getLsbD 1 = true := by
  have hmode : ∀ b : BitVec 2, b = 0b10#2 ∨ b = 0b11#2 ↔ b.getLsbD 1 = true := by decide
  rw [chcfgOfData_eq_none, hmode, BitVec.getLsbD_extractLsb']
  rfl

/-- A `TIM_CHCFG` value with no reserved bit or encoding has a mode. -/
theorem exists_chcfgOfData_eq_some {v : Word} (hv : v.extractLsb' 3 29 = 0#29) (h1 : v.getLsbD 1 = false) :
    ∃ g, chcfgOfData v = some g := by
  refine Option.ne_none_iff_exists'.mp fun hnone => ?_
  obtain h | h := chcfgOfData_eq_none_iff_getLsbD.mp hnone
  · exact h hv
  · exact ne_true_of_eq_false h1 h

/-- Settles O19: the gate, the reserved bits and encodings, and the lock; the mode stored is the one that the value's
bits stand for. -/
theorem writeTimChcfgSetsMode : Obligations.WriteTimChcfgSetsMode := by
  refine fun v s => ⟨rfl, (gatedAccessFaults _ s).1 rfl,
    fun hon hres => requireTimerClock_demand_of_none hon (chcfgOfData_eq_none_iff_getLsbD.mpr hres),
    fun hon hv h1 hcen => ?_, fun hon hv h1 hcen => ?_⟩
  · obtain ⟨g, hg⟩ := exists_chcfgOfData_eq_some hv h1
    exact (requireTimerClock_demand_of_some hon hg).trans (require_unlocked_of_cen hcen)
  · obtain ⟨⟨m, f⟩, hg⟩ := exists_chcfgOfData_eq_some hv h1
    obtain ⟨-, hm, rfl⟩ := chcfgOfData_eq_some.mp hg
    exact ⟨m, hm, execWrTimChcfg_next.mpr ⟨hon, hcen, m, _, hg, rfl⟩⟩

/-- Settles O20: the gate is the only check. -/
theorem readTimChcfgReturnsMode : Obligations.ReadTimChcfgReturnsMode := fun s =>
  ⟨rfl, (gatedAccessFaults _ s).1 rfl, fun hon => execRdTimChcfg_next.mpr ⟨hon, rfl⟩⟩

/-! ### `TIM_PSC` and `TIM_ARR` -/

/-- Settles O21: the gate, the reserved bits and the lock. -/
theorem writeTimPscSetsPrescaler : Obligations.WriteTimPscSetsPrescaler := fun _ s =>
  ⟨rfl, (gatedAccessFaults _ s).1 rfl,
    fun hon hv => requireTimerClock_demand_of_none hon (pscOfData_eq_none.mpr hv),
    fun hon hv hcen => (requireTimerClock_demand_of_some hon (pscOfData_eq_some.mpr ⟨hv, rfl⟩)).trans
      (require_unlocked_of_cen hcen),
    fun hon hv hcen => execWrTimPsc_next.mpr ⟨hon, hcen, hv, rfl⟩⟩

/-- Settles O22: the gate, and the demand for a written register. -/
theorem readTimPscReturnsPrescaler : Obligations.ReadTimPscReturnsPrescaler := fun s =>
  ⟨rfl, (gatedAccessFaults _ s).1 rfl, requireTimerClock_demand_of_none,
    fun p hon hp => execRdTimPsc_next.mpr ⟨hon, p, hp, rfl⟩⟩

/-- Settles O23: the gate and the lock; no check looks at the value. -/
theorem writeTimArrSetsPeriod : Obligations.WriteTimArrSetsPeriod := fun _ s =>
  ⟨rfl, (gatedAccessFaults _ s).1 rfl,
    fun hon hcen => requireTimerClock_eq_fault.mpr (.inr ⟨hon, require_unlocked_of_cen hcen⟩),
    fun hon hcen => execWrTimArr_next.mpr ⟨hon, hcen, rfl⟩⟩

/-- Settles O24: the gate, and the demand for a written register. -/
theorem readTimArrReturnsPeriod : Obligations.ReadTimArrReturnsPeriod := fun s =>
  ⟨rfl, (gatedAccessFaults _ s).1 rfl, requireTimerClock_demand_of_none,
    fun a hon ha => execRdTimArr_next.mpr ⟨hon, a, ha, rfl⟩⟩

/-! ### `TIM_CCR` and `TIM_CNT` -/

theorem State.loadsAtOnce_eq_true {s : State} : s.loadsAtOnce = true ↔ s.cen = false ∨ s.fastEn = true := by
  simp [State.loadsAtOnce]

/-- Settles O25: the gate is the only check; the value is loaded at once in the two cases of R140. -/
theorem writeTimCcrSetsDuty : Obligations.WriteTimCcrSetsDuty := by
  refine fun v s => ⟨rfl, (gatedAccessFaults _ s).1 rfl, fun hon hload => ?_, fun hon hcen hfast => ?_⟩
  · exact execWrTimCcr_next.mpr ⟨hon, (if_pos (State.loadsAtOnce_eq_true.mpr hload)).symm⟩
  · have hload : ¬ s.loadsAtOnce = true := by simp [State.loadsAtOnce_eq_true, hcen, hfast]
    exact execWrTimCcr_next.mpr ⟨hon, (if_neg hload).symm⟩

/-- Settles O26: the gate, and the demand for a written preload copy. -/
theorem readTimCcrReturnsPreload : Obligations.ReadTimCcrReturnsPreload := fun s =>
  ⟨rfl, (gatedAccessFaults _ s).1 rfl, requireTimerClock_demand_of_none,
    fun c hon hc => execRdTimCcr_next.mpr ⟨hon, c, hc, rfl⟩⟩

/-- Settles O27: the gate is the only check, and the bound is the invariant's. -/
theorem readTimCntReturnsCounter : Obligations.ReadTimCntReturnsCounter := by
  refine fun s => ⟨rfl, (gatedAccessFaults _ s).1 rfl, fun hon => execRdTimCnt_next.mpr ⟨hon, rfl⟩, fun hinv hcen => ?_⟩
  obtain ⟨-, p, a, c, d, -, ha, -, -, -, hcnt, -⟩ := hinv.counting hcen
  exact ⟨a, ha, hcnt⟩

/-- Settles O28: behind the gate there is only the fault. -/
theorem writeTimCntAlwaysFaults : Obligations.WriteTimCntAlwaysFaults := fun _ s =>
  ⟨rfl, (gatedAccessFaults _ s).1 rfl, fun hon => requireTimerClock_eq_fault.mpr (.inr ⟨hon, rfl⟩)⟩

/-! ### The lock -/

/-- While `CEN = 1` a transaction of a locked register that completes is a read (42_timer_registers.md R145). -/
theorem writeData_eq_none_of_exec_locked {i : Instr} {s t : State} (hcen : s.cen = true) (h : exec i s = .next t)
    (hr : i.reg = .timPsc ∨ i.reg = .timArr ∨ i.reg = .timChcfg) : i.writeData = none := by
  refine Option.eq_none_iff_forall_ne_some.mpr fun v hv => ne_true_of_eq_false ?_ hcen
  rw [eq_write_of_writeData hv] at h
  obtain hr | hr | hr := hr <;> rw [hr] at h
  · obtain ⟨-, hunlocked, -⟩ := execWrTimPsc_next.mp h
    exact hunlocked
  · obtain ⟨-, hunlocked, -⟩ := execWrTimArr_next.mp h
    exact hunlocked
  · obtain ⟨-, hunlocked, -⟩ := execWrTimChcfg_next.mp h
    exact hunlocked

/-- Settles O29: a transaction leaves alone every register it does not write, and these it cannot write. -/
theorem configurationLockedWhileCounting : Obligations.ConfigurationLockedWhileCounting := by
  intro i s t hcen h
  obtain ⟨-, -, hchcfg, hpsc, harr, -⟩ := transactionsTouchOnlyTheirRegister i s t h
  have hlocked (r : Reg) (hr : r = .timPsc ∨ r = .timArr ∨ r = .timChcfg) : i.reg ≠ r ∨ i.writeData = none :=
    imp_iff_not_or.mp fun e => writeData_eq_none_of_exec_locked hcen h (e ▸ hr)
  obtain ⟨hmode, hfast⟩ := hchcfg (hlocked _ (.inr (.inr rfl)))
  exact ⟨hpsc (hlocked _ (.inl rfl)), harr (hlocked _ (.inr (.inl rfl))), hmode, hfast⟩

end Sys2Proof.Machine
end

section
/-! PROOFS. The counter (43_counter_compare.md R160 to R169): a TICK in exact integers, and the one law that the period
follows from: the place in the frame, `CNT * (PSC + 1) + PCNT`, goes up by one at each TICK, modulo the TICKs of a frame. -/

namespace Sys2Proof.Machine

/-! ### The TICK, case by case -/

theorem State.counting_eq_true {s : State} : s.counting = true ↔ s.timClkEn = true ∧ s.cen = true :=
  Bool.and_eq_true_iff

theorem State.counting_eq_false {s : State} : s.counting = false ↔ s.timClkEn = false ∨ s.cen = false :=
  Bool.and_eq_false_iff

theorem State.updateDue_eq_true {s : State} : s.updateDue = true ↔ s.psc = some s.pcnt ∧ s.arr = some s.cnt := by
  simp [State.updateDue, State.prescalerDone, State.atTop]

section
variable {s : State} (hc : s.counting = true)
include hc

theorem tick_of_psc_ne (hp : s.psc ≠ some s.pcnt) : tick s = s.setPcnt (s.pcnt + 1#16) := by
  obtain ⟨-, e⟩ | ⟨hp', -⟩ | ⟨hp', -⟩ := tick_cases hc
  · exact e
  · exact absurd hp' hp
  · exact absurd hp' hp

theorem tick_of_arr_ne (hp : s.psc = some s.pcnt) (ha : s.arr ≠ some s.cnt) :
    tick s = (s.setPcnt 0#16).setCnt (s.cnt + 1#32) := by
  obtain ⟨hp', -⟩ | ⟨-, -, e⟩ | ⟨-, ha', -⟩ := tick_cases hc
  · exact absurd hp hp'
  · exact e
  · exact absurd ha' ha

/-- The update event (43_counter_compare.md R163, R164). -/
theorem tick_of_updateDue (hu : s.updateDue = true) : tick s = ((s.setPcnt 0#16).setCnt 0#32).loadCcr := by
  obtain ⟨hp, ha⟩ := State.updateDue_eq_true.mp hu
  obtain ⟨hp', -⟩ | ⟨-, ha', -⟩ | ⟨-, -, e⟩ := tick_cases hc
  · exact absurd hp hp'
  · exact absurd ha ha'
  · exact e

end

/-- Settles O34: the idle TICK and the three cases of a counting one. -/
theorem tickCountsAndReloads : Obligations.TickCountsAndReloads := fun _ =>
  ⟨fun h => tick_idle (State.counting_eq_false.mpr h),
    fun hclk hcen hp => tick_of_psc_ne (State.counting_eq_true.mpr ⟨hclk, hcen⟩) hp,
    fun hclk hcen hp ha => tick_of_arr_ne (State.counting_eq_true.mpr ⟨hclk, hcen⟩) hp ha,
    fun hclk hcen hp ha =>
      tick_of_updateDue (State.counting_eq_true.mpr ⟨hclk, hcen⟩) (State.updateDue_eq_true.mpr ⟨hp, ha⟩)⟩

/-- With no input left a step is a TICK (log 1). -/
theorem step_of_no_input {s : State} (hf : s.faultRecord = none) (hi : s.inputs = []) :
    step s = .next (tick (s.advance [])) := by
  simp only [step, hf, hi]

theorem step_reset {s : State} {rest : List Input} (hf : s.faultRecord = none) (hi : s.inputs = .reset :: rest) :
    step s = .next (s.advance rest).resetStep := by
  simp only [step, hf, hi]

/-- Settles O48: the steps that take no transaction, by the inputs they take. -/
theorem stepTicksAndResets : Obligations.StepTicksAndResets := fun s rest hf =>
  ⟨fun hi => (step_tick hf hi).trans (congrArg Host.Outcome.next (tick_at s rest (s.steps + 1)).symm),
    step_of_no_input hf, step_reset hf⟩

/-! ### What a run of TICKs leaves alone -/

section
variable (k : Nat) (s : State)

@[simp] theorem ticks_cen : (ticks k s).cen = s.cen := by
  obtain ⟨p, c, d, e⟩ := ticks_frame k s
  rw [e]

@[simp] theorem ticks_chen : (ticks k s).chen = s.chen := by
  obtain ⟨p, c, d, e⟩ := ticks_frame k s
  rw [e]

@[simp] theorem ticks_ocMode : (ticks k s).ocMode = s.ocMode := by
  obtain ⟨p, c, d, e⟩ := ticks_frame k s
  rw [e]

@[simp] theorem ticks_psc : (ticks k s).psc = s.psc := by
  obtain ⟨p, c, d, e⟩ := ticks_frame k s
  rw [e]

@[simp] theorem ticks_arr : (ticks k s).arr = s.arr := by
  obtain ⟨p, c, d, e⟩ := ticks_frame k s
  rw [e]

@[simp] theorem ticks_ccrPre : (ticks k s).ccrPre = s.ccrPre := by
  obtain ⟨p, c, d, e⟩ := ticks_frame k s
  rw [e]

@[simp] theorem ticks_counting : (ticks k s).counting = s.counting := by simp [State.counting]

end

/-! ### The counters within their bounds -/

/-- The timer counts with prescaler `p` and period `a`, and its counters are within their bounds (R165). -/
structure State.CountsWithin (s : State) (p : Half) (a : Word) : Prop where
  counting : s.counting = true
  psc : s.psc = some p
  arr : s.arr = some a
  cnt_le : s.cnt.toNat ≤ a.toNat
  pcnt_le : s.pcnt.toNat ≤ p.toNat

theorem State.AtFrameStart.countsWithin {s : State} {p : Half} {a : Word} (h : s.AtFrameStart p a) :
    s.CountsWithin p a where
  counting := h.counting
  psc := h.psc
  arr := h.arr
  cnt_le := by simp [h.cnt]
  pcnt_le := by simp [h.pcnt]

/-- Below another word of its width a word goes up without wrapping. -/
theorem toNat_add_one_of_toNat_lt {w : Nat} {x y : BitVec w} (h : x.toNat < y.toNat) :
    (x + 1#w).toNat = x.toNat + 1 := by
  have hy := y.isLt
  rw [BitVec.toNat_add, BitVec.toNat_ofNat, Nat.add_mod_mod, Nat.mod_eq_of_lt (by omega)]

theorem frameTicks_pos (p : Half) (a : Word) : 0 < frameTicks p a := Nat.mul_pos (Nat.succ_pos _) (Nat.succ_pos _)

/-- A remainder does not reach the quotient. -/
theorem mul_add_div_of_lt {q n r : Nat} (h : r < n) : (q * n + r) / n = q := by
  rw [Nat.add_comm, Nat.add_mul_div_right _ _ (Nat.zero_lt_of_lt h), Nat.div_eq_of_lt h, Nat.zero_add]

/-- The place in the frame, in TICKs from its start (R167). -/
def State.framePos (s : State) (p : Half) : Nat := s.cnt.toNat * (p.toNat + 1) + s.pcnt.toNat

theorem State.AtFrameStart.framePos_eq_zero {s : State} {p : Half} {a : Word} (h : s.AtFrameStart p a) : s.framePos p = 0 := by
  simp [State.framePos, h.cnt, h.pcnt]

namespace State.CountsWithin
variable {s : State} {p : Half} {a : Word} (h : s.CountsWithin p a)
include h

theorem psc_eq_some_pcnt_iff : s.psc = some s.pcnt ↔ s.pcnt = p := by rw [h.psc, Option.some_inj, eq_comm]

theorem arr_eq_some_cnt_iff : s.arr = some s.cnt ↔ s.cnt = a := by rw [h.arr, Option.some_inj, eq_comm]

theorem updateDue_iff_eq : s.updateDue = true ↔ s.pcnt = p ∧ s.cnt = a := by
  rw [State.updateDue_eq_true, h.psc_eq_some_pcnt_iff, h.arr_eq_some_cnt_iff]

/-- A TICK within the bounds, in exact integers: it does not wrap. -/
theorem tick_cases_toNat :
    (s.pcnt.toNat < p.toNat ∧ (tick s).pcnt.toNat = s.pcnt.toNat + 1 ∧ (tick s).cnt = s.cnt) ∨
    (s.pcnt = p ∧ s.cnt.toNat < a.toNat ∧ (tick s).pcnt = 0#16 ∧ (tick s).cnt.toNat = s.cnt.toNat + 1) ∨
    (s.pcnt = p ∧ s.cnt = a ∧ (tick s).pcnt = 0#16 ∧ (tick s).cnt = 0#32) := by
  have htick := tick_cases h.counting
  rw [ne_eq, ne_eq, h.psc_eq_some_pcnt_iff, h.arr_eq_some_cnt_iff] at htick
  obtain ⟨hp, e⟩ | ⟨hp, ha, e⟩ | ⟨hp, ha, e⟩ := htick
  · have hlt := h.pcnt_le.lt_of_ne (mt BitVec.eq_of_toNat_eq hp)
    exact .inl ⟨hlt, by rw [e]; exact toNat_add_one_of_toNat_lt hlt, by rw [e]; rfl⟩
  · have hlt := h.cnt_le.lt_of_ne (mt BitVec.eq_of_toNat_eq ha)
    exact .inr (.inl ⟨hp, hlt, by rw [e]; rfl, by rw [e]; exact toNat_add_one_of_toNat_lt hlt⟩)
  · exact .inr (.inr ⟨hp, ha, by rw [e]; rfl, by rw [e]; rfl⟩)

theorem after_tick : (tick s).CountsWithin p a where
  counting := (ticks_counting 1 s).trans h.counting
  psc := (ticks_psc 1 s).trans h.psc
  arr := (ticks_arr 1 s).trans h.arr
  cnt_le := by
    obtain ⟨-, -, hcnt⟩ | ⟨-, hlt, -, hcnt⟩ | ⟨-, -, -, hcnt⟩ := h.tick_cases_toNat
    · exact hcnt ▸ h.cnt_le
    · omega
    · simp [hcnt]
  pcnt_le := by
    obtain ⟨hlt, hpcnt, -⟩ | ⟨-, -, hpcnt, -⟩ | ⟨-, -, hpcnt, -⟩ := h.tick_cases_toNat
    · omega
    · simp [hpcnt]
    · simp [hpcnt]

theorem after_ticks (k : Nat) : (ticks k s).CountsWithin p a := by
  induction k with
  | zero => exact h
  | succ k ih => exact ih.after_tick

/-! ### The place in the frame -/

theorem framePos_lt : s.framePos p < frameTicks p a :=
  calc s.cnt.toNat * (p.toNat + 1) + s.pcnt.toNat
      < s.cnt.toNat * (p.toNat + 1) + (p.toNat + 1) := Nat.add_lt_add_left (Nat.lt_succ_of_le h.pcnt_le) _
    _ = (s.cnt.toNat + 1) * (p.toNat + 1) := (Nat.succ_mul _ _).symm
    _ ≤ frameTicks p a := Nat.mul_le_mul_right _ (Nat.succ_le_succ h.cnt_le)

theorem pcnt_eq : s.pcnt.toNat = s.framePos p % (p.toNat + 1) :=
  (Nat.mul_add_mod_of_lt (Nat.lt_succ_of_le h.pcnt_le)).symm

theorem cnt_eq : s.cnt.toNat = s.framePos p / (p.toNat + 1) :=
  (mul_add_div_of_lt (Nat.lt_succ_of_le h.pcnt_le)).symm

/-- The TICK before the end of the frame is the one at `PCNT = PSC`, `CNT = ARR`. -/
theorem updateDue_iff : s.updateDue = true ↔ s.framePos p + 1 = frameTicks p a := by
  rw [h.updateDue_iff_eq]
  constructor
  · rintro ⟨rfl, rfl⟩
    rw [State.framePos, frameTicks, Nat.succ_mul, Nat.add_assoc]
  · intro hlast
    have hpos : s.framePos p = a.toNat * (p.toNat + 1) + p.toNat := by
      rw [frameTicks, Nat.succ_mul] at hlast
      omega
    refine ⟨BitVec.eq_of_toNat_eq ?_, BitVec.eq_of_toNat_eq ?_⟩
    · rw [h.pcnt_eq, hpos, Nat.mul_add_mod_of_lt (Nat.lt_succ_self _)]
    · rw [h.cnt_eq, hpos, mul_add_div_of_lt (Nat.lt_succ_self _)]

theorem framePos_tick : (tick s).framePos p = (s.framePos p + 1) % frameTicks p a := by
  by_cases hu : s.updateDue = true
  · rw [h.updateDue_iff.mp hu, Nat.mod_self, tick_of_updateDue h.counting hu]
    simp [State.framePos]
  · have hgo : (tick s).framePos p = s.framePos p + 1 := by
      rw [h.updateDue_iff_eq] at hu
      unfold State.framePos
      obtain ⟨-, hpcnt, hcnt⟩ | ⟨hp, -, hpcnt, hcnt⟩ | ⟨hp, ha, -⟩ := h.tick_cases_toNat
      · rw [hpcnt, hcnt, Nat.add_assoc]
      · rw [hpcnt, hcnt, hp, Nat.succ_mul]
        rfl
      · exact absurd ⟨hp, ha⟩ hu
    rw [← hgo, Nat.mod_eq_of_lt h.after_tick.framePos_lt]

theorem framePos_ticks (k : Nat) : (ticks k s).framePos p = (s.framePos p + k) % frameTicks p a := by
  induction k with
  | zero => exact (Nat.mod_eq_of_lt h.framePos_lt).symm
  | succ k ih => rw [ticks_succ, (h.after_ticks k).framePos_tick, ih, Nat.mod_add_mod, Nat.add_assoc]

theorem pcnt_ticks (k : Nat) : (ticks k s).pcnt.toNat = (s.framePos p + k) % (p.toNat + 1) := by
  rw [(h.after_ticks k).pcnt_eq, h.framePos_ticks, frameTicks, Nat.mod_mul_left_mod]

theorem cnt_ticks (k : Nat) : (ticks k s).cnt.toNat = (s.framePos p + k) / (p.toNat + 1) % (a.toNat + 1) := by
  rw [(h.after_ticks k).cnt_eq, h.framePos_ticks, frameTicks, Nat.mod_mul_left_div_self]

theorem updateDue_ticks_iff (k : Nat) :
    (ticks k s).updateDue = true ↔ (s.framePos p + k + 1) % frameTicks p a = 0 := by
  obtain ⟨n, hn⟩ := Nat.exists_eq_add_of_lt h.framePos_lt
  rw [(h.after_ticks k).updateDue_iff, h.framePos_ticks, hn, Nat.succ_mod_succ_eq_zero_iff, Nat.succ_inj]

end State.CountsWithin

theorem State.AtFrameStart.updateDue_ticks_iff {s : State} {p : Half} {a : Word} (h : s.AtFrameStart p a) (k : Nat) :
    (ticks k s).updateDue = true ↔ (k + 1) % frameTicks p a = 0 := by
  rw [h.countsWithin.updateDue_ticks_iff, h.framePos_eq_zero, Nat.zero_add]

/-- Settles O37: from the start of a frame the place in it is `k` modulo its length. -/
theorem counterFollowsPeriodLaw : Obligations.CounterFollowsPeriodLaw := by
  intro s p a h k
  have hk : s.framePos p + k = k := by rw [h.framePos_eq_zero, Nat.zero_add]
  refine ⟨?_, ?_, h.updateDue_ticks_iff k⟩
  · rw [h.countsWithin.pcnt_ticks, hk]
  · rw [h.countsWithin.cnt_ticks, hk]

/-- Settles O36: at `PCNT = 0` the place in the frame is `CNT * (PSC + 1)`, so `PSC` more TICKs leave its quotient by
`PSC + 1`, and the next moves it. -/
theorem prescalerDividesKernelClock : Obligations.PrescalerDividesKernelClock := by
  intro s p a hcounting hpsc harr _ hcnt hpcnt
  have h : s.CountsWithin p a := ⟨hcounting, hpsc, harr, hcnt, by simp [hpcnt]⟩
  have hpos : s.framePos p = s.cnt.toNat * (p.toNat + 1) := by simp [State.framePos, hpcnt]
  refine ⟨fun k hk => ⟨BitVec.eq_of_toNat_eq ?_, ?_⟩, ?_, BitVec.eq_of_toNat_eq ?_⟩
  · rw [h.cnt_ticks, hpos, mul_add_div_of_lt (Nat.lt_succ_of_le hk), Nat.mod_eq_of_lt (Nat.lt_succ_of_le hcnt)]
  · rw [h.pcnt_ticks, hpos, Nat.mul_add_mod_of_lt (Nat.lt_succ_of_le hk)]
  · rw [h.cnt_ticks, hpos, ← Nat.succ_mul, Nat.mul_div_cancel _ (Nat.succ_pos _)]
    split
    · next htop => rw [htop, Nat.mod_self]
    · next htop =>
      have hlt := hcnt.lt_of_ne (mt BitVec.eq_of_toNat_eq htop)
      exact Nat.mod_eq_of_lt (Nat.succ_lt_succ hlt)
  · rw [h.pcnt_ticks, hpos, ← Nat.succ_mul, Nat.mul_mod_left]
    rfl

end Sys2Proof.Machine
end

section
/-! PROOFS. The invariant behind 43_counter_compare.md R165 and 40_clock_gate.md R104: it holds at reset and every step keeps
it, the TICK because its counters stay within their bounds and it loads one compare copy from the other, a transaction
because the checks of `WR TIM_CTRL` establish it and the lock of R145 protects it; and what R169 derives from it. -/

namespace Sys2Proof.Machine

/-! ### The compare copies over TICKs -/

theorem tick_ccrAct_of_not_updateDue {s : State} (hu : s.updateDue = false) : (tick s).ccrAct = s.ccrAct := by
  cases hc : s.counting with
  | false => rw [tick_idle hc]
  | true =>
    obtain ⟨-, e⟩ | ⟨-, -, e⟩ | ⟨hp, ha, -⟩ := tick_cases hc
    · rw [e]
      rfl
    · rw [e]
      rfl
    · exact absurd (State.updateDue_eq_true.mpr ⟨hp, ha⟩) (ne_true_of_eq_false hu)

/-- Whatever TICKs pass, the compare value in force is the one that was, or the preloaded one. -/
theorem ticks_ccrAct_cases (k : Nat) (s : State) :
    (ticks k s).ccrAct = s.ccrAct ∨ (ticks k s).ccrAct = s.ccrPre := by
  induction k with
  | zero => exact .inl rfl
  | succ k ih =>
    cases hc : (ticks k s).counting with
    | false => rwa [ticks_succ, tick_idle hc]
    | true =>
      cases hu : (ticks k s).updateDue with
      | false => rwa [ticks_succ, tick_ccrAct_of_not_updateDue hu]
      | true =>
        rw [ticks_succ, tick_of_updateDue hc hu]
        exact .inr (ticks_ccrPre k s)

/-- Without an update event among the TICKs the compare value in force is held (R164). -/
theorem ticks_ccrAct_of_not_updateDue {k : Nat} {s : State} (h : ∀ j, j < k → (ticks j s).updateDue = false) :
    (ticks k s).ccrAct = s.ccrAct := by
  induction k with
  | zero => rfl
  | succ k ih =>
    rw [ticks_succ, tick_ccrAct_of_not_updateDue (h k (Nat.lt_succ_self k)), ih fun j hj => h j (Nat.lt_succ_of_lt hj)]

/-! ### The invariant -/

/-- Settles O55: both enables are 0 and both copies unwritten. -/
theorem countingBoundsHoldAtReset : Obligations.CountingBoundsHoldAtReset where
  counting h := Bool.noConfusion h
  channel h := Bool.noConfusion h
  copies := rfl

theorem inv_resetStep (s : State) : s.resetStep.Inv where
  counting := countingBoundsHoldAtReset.counting
  channel := countingBoundsHoldAtReset.channel
  copies := rfl

theorem inv_advance {s : State} (h : s.Inv) (rest : List Input) : (s.advance rest).Inv where
  counting := h.counting
  channel := h.channel
  copies := h.copies

/-- What the invariant says while the timer counts, with the period of R132. -/
theorem State.Inv.exists_countsWithin {s : State} (h : s.Inv) (hc : s.counting = true) :
    ∃ p a, s.CountsWithin p a ∧ 1 ≤ a.toNat := by
  obtain ⟨-, hcen⟩ := State.counting_eq_true.mp hc
  obtain ⟨-, p, a, -, -, hp, ha, -, -, hpos, hcnt, hpcnt⟩ := h.counting hcen
  exact ⟨p, a, ⟨hc, hp, ha, hcnt, hpcnt⟩, hpos⟩

/-- Each copy holds a value after a TICK when both did before it, and none when neither did. -/
theorem tick_ccrAct_isSome {s : State} (h : s.ccrAct.isSome = s.ccrPre.isSome) :
    (tick s).ccrAct.isSome = s.ccrPre.isSome := by
  obtain e | e := ticks_ccrAct_cases 1 s
  · exact (congrArg Option.isSome e).trans h
  · exact congrArg Option.isSome e

theorem inv_tick {s : State} (h : s.Inv) : (tick s).Inv := by
  have hpre : (tick s).ccrPre = s.ccrPre := ticks_ccrPre 1 s
  have hcopies := tick_ccrAct_isSome h.copies
  refine ⟨fun hcen => ?_, fun hchen => ?_, ?_⟩
  · have hcen' : s.cen = true := (ticks_cen 1 s).symm.trans hcen
    obtain ⟨hclk, -, -, c, -, -, -, hc, -⟩ := h.counting hcen'
    obtain ⟨p, a, hin, hpos⟩ := h.exists_countsWithin (State.counting_eq_true.mpr ⟨hclk, hcen'⟩)
    obtain ⟨d, hd⟩ := Option.isSome_iff_exists.mp (hcopies.trans (congrArg Option.isSome hc))
    exact ⟨(ticks_timClkEn 1 s).trans hclk, p, a, c, d, hin.after_tick.psc, hin.after_tick.arr, hpre.trans hc, hd, hpos,
      hin.after_tick.cnt_le, hin.after_tick.pcnt_le⟩
  · rw [hpre, show (tick s).arr = s.arr from ticks_arr 1 s]
    exact h.channel ((ticks_chen 1 s).symm.trans hchen)
  · rw [hcopies, hpre]

theorem inv_ticks {s : State} (h : s.Inv) (k : Nat) : (ticks k s).Inv := by
  induction k with
  | zero => exact h
  | succ k ih => exact inv_tick ih

/-- While stopped, nothing is asked of the counters: the invariant is that of the comparator's registers. -/
theorem inv_of_stopped {s : State} (hcen : s.cen = false)
    (hchannel : s.chen = true → s.arr.isSome = true ∧ s.ccrPre.isSome = true)
    (hcopies : s.ccrAct.isSome = s.ccrPre.isSome) : s.Inv :=
  ⟨fun h => absurd h (ne_true_of_eq_false hcen), hchannel, hcopies⟩

/-- The checks of `WR TIM_CTRL` establish what the invariant asks of a start and of a routing (R131, R132). -/
theorem inv_execWrTimCtrl {v : Word} {s t : State} (h : s.Inv) (hx : exec (.wrTimCtrl v) s = .next t) : t.Inv := by
  obtain ⟨hclk, -, hstart, hroute, rfl⟩ := execWrTimCtrl_next.mp hx
  refine ⟨fun hcen => ?_, fun hchen => ?_, h.copies⟩
  · cases hold : s.cen with
    | true => exact h.counting hold
    | false =>
      obtain ⟨hready, hsane⟩ := hstart (State.starting_eq_true.mpr ⟨hold, hcen⟩)
      simp only [State.counterReady, Bool.and_eq_true, Option.isSome_iff_exists] at hready
      obtain ⟨⟨⟨p, hp⟩, a, ha⟩, c, hc⟩ := hready
      obtain ⟨d, hd⟩ := Option.isSome_iff_exists.mp (h.copies.trans (congrArg Option.isSome hc))
      have hbounds : 1 ≤ a.toNat ∧ s.cnt.toNat ≤ a.toNat ∧ s.pcnt.toNat ≤ p.toNat := by
        by_contra hbad
        exact ne_true_of_eq_false hsane (State.degenerate_eq_true.mpr ⟨a, p, ha, hp, by omega⟩)
      exact ⟨hclk, p, a, c, d, hp, ha, hc, hd, hbounds⟩
  · cases hold : s.chen with
    | true => exact h.channel hold
    | false => exact Bool.and_eq_true_iff.mp (hroute (State.routing_eq_true.mpr ⟨hold, hchen⟩))

/-- A duty write leaves both copies written: while the timer counts the one in force already was (R140, R141). -/
theorem inv_execWrTimCcr {v : Word} {s t : State} (h : s.Inv) (hx : exec (.wrTimCcr v) s = .next t) : t.Inv := by
  obtain ⟨hclk, rfl⟩ := execWrTimCcr_next.mp hx
  split
  · refine ⟨fun hcen => ?_, fun hchen => ⟨(h.channel hchen).1, rfl⟩, rfl⟩
    obtain ⟨-, p, a, -, -, hp, ha, -, -, hbounds⟩ := h.counting hcen
    exact ⟨hclk, p, a, v, v, hp, ha, rfl, rfl, hbounds⟩
  · next hload =>
    have hcen : s.cen = true := Bool.eq_true_of_not_eq_false fun e => hload (State.loadsAtOnce_eq_true.mpr (.inl e))
    obtain ⟨-, p, a, -, d, hp, ha, -, hd, hbounds⟩ := h.counting hcen
    exact ⟨fun _ => ⟨hclk, p, a, v, d, hp, ha, rfl, hd, hbounds⟩, fun hchen => ⟨(h.channel hchen).1, rfl⟩,
      by rw [State.setCcrPre_ccrAct, hd]; rfl⟩

theorem inv_exec {i : Instr} {s t : State} (h : s.Inv) (hx : exec i s = .next t) : t.Inv := by
  cases hw : i.writeData with
  | none =>
    obtain ⟨d, rfl⟩ := setReadData_of_exec_read (eq_read_of_writeData hw ▸ hx)
    exact ⟨h.counting, h.channel, h.copies⟩
  | some v =>
    obtain ⟨r, rfl⟩ : ∃ r : Reg, i = r.write v := ⟨_, eq_write_of_writeData hw⟩
    cases r with
    | gate =>
      obtain ⟨-, htim, -, rfl⟩ := execWrGate_next.mp hx
      refine ⟨fun hcen => ?_, h.channel, h.copies⟩
      obtain ⟨hclk, hbounds⟩ := h.counting hcen
      exact ⟨htim hclk, hbounds⟩
    | timCtrl => exact inv_execWrTimCtrl h hx
    | timChcfg =>
      obtain ⟨-, hcen, m, f, -, rfl⟩ := execWrTimChcfg_next.mp hx
      exact inv_of_stopped hcen h.channel h.copies
    | timPsc =>
      obtain ⟨-, hcen, -, rfl⟩ := execWrTimPsc_next.mp hx
      exact inv_of_stopped hcen h.channel h.copies
    | timArr =>
      obtain ⟨-, hcen, rfl⟩ := execWrTimArr_next.mp hx
      exact inv_of_stopped hcen (fun hchen => ⟨rfl, (h.channel hchen).2⟩) h.copies
    | timCcr => exact inv_execWrTimCcr h hx
    | timCnt => exact absurd hx (execWrTimCnt_ne_next v s t)
    | pincfg n =>
      obtain ⟨-, -, c, -, rfl⟩ := execWrPincfg_next.mp hx
      exact ⟨h.counting, h.channel, h.copies⟩

/-- Settles O56: a step is a TICK, a reset or a transaction, and each keeps the invariant. -/
theorem stepKeepsCountingBounds : Obligations.StepKeepsCountingBounds := by
  intro s t h hstep
  obtain ⟨-, ⟨rest, -, rfl⟩ | ⟨rest, -, rfl⟩ | ⟨w, rest, i, -, -, hx⟩⟩ := step_next_cases hstep
  · exact inv_tick (inv_advance h rest)
  · exact inv_resetStep (s.advance rest)
  · exact inv_exec (inv_advance h rest) hx

/-- Settles O35: the invariant gives the bounds, within which a TICK is one of three in exact integers. -/
theorem countingNeverWraps : Obligations.CountingNeverWraps := by
  intro s hinv hc
  obtain ⟨p, a, h, -⟩ := hinv.exists_countsWithin hc
  obtain ⟨-, hpcnt, hcnt⟩ | ⟨-, -, hpcnt, hcnt⟩ | ⟨hp, ha, hpcnt, hcnt⟩ := h.tick_cases_toNat
  · exact .inl ⟨hpcnt, hcnt⟩
  · exact .inr (.inl ⟨congrArg BitVec.toNat hpcnt, hcnt⟩)
  · exact .inr (.inr ⟨congrArg BitVec.toNat hpcnt, congrArg BitVec.toNat hcnt, h.updateDue_iff_eq.mpr ⟨hp, ha⟩⟩)

end Sys2Proof.Machine
end

section
/-! PROOFS. The compare unit (43_counter_compare.md R163 to R175): when the compare value is loaded, the output as a comparison
of the place in the frame, the two constant outputs, and what a stop and a start of the timer do. -/

namespace Sys2Proof.Machine

/-! ### The load at the end of a frame -/

/-- From the start of a frame the first update event is its last TICK. -/
theorem State.AtFrameStart.updateDue_eq_false {s : State} {p : Half} {a : Word} (h : s.AtFrameStart p a) {k : Nat}
    (hk : k + 1 < frameTicks p a) : (ticks k s).updateDue = false := by
  rw [← Bool.not_eq_true, h.updateDue_ticks_iff, Nat.mod_eq_of_lt hk]
  exact Nat.succ_ne_zero k

theorem State.AtFrameStart.updateDue_last {s : State} {p : Half} {a : Word} (h : s.AtFrameStart p a) :
    (ticks (frameTicks p a - 1) s).updateDue = true := by
  rw [h.updateDue_ticks_iff, Nat.sub_add_cancel (frameTicks_pos p a), Nat.mod_self]

theorem State.AtFrameStart.ccrAct_in_frame {s : State} {p : Half} {a : Word} (h : s.AtFrameStart p a) {k : Nat}
    (hk : k < frameTicks p a) : (ticks k s).ccrAct = s.ccrAct :=
  ticks_ccrAct_of_not_updateDue fun _ hj => h.updateDue_eq_false (Nat.lt_of_le_of_lt hj hk)

/-- Once loaded the preloaded value stays in force: a later load brings the same. -/
theorem State.AtFrameStart.ccrAct_after_frame {s : State} {p : Half} {a : Word} (h : s.AtFrameStart p a) {k : Nat}
    (hk : frameTicks p a ≤ k) : (ticks k s).ccrAct = s.ccrPre := by
  obtain ⟨m, rfl⟩ := Nat.exists_eq_add_of_le hk
  have hload : (ticks (frameTicks p a) s).ccrAct = s.ccrPre := by
    rw [← Nat.sub_add_cancel (frameTicks_pos p a), ticks_succ,
      tick_of_updateDue ((ticks_counting _ s).trans h.counting) h.updateDue_last]
    exact ticks_ccrPre _ s
  rw [ticks_add]
  obtain e | e := ticks_ccrAct_cases m (ticks (frameTicks p a) s)
  · exact e.trans hload
  · exact e.trans (ticks_ccrPre _ s)

/-- Settles O38: no update event falls in the frame before its last TICK, and that one loads. -/
theorem compareLoadsAtFrameEnd : Obligations.CompareLoadsAtFrameEnd := by
  refine fun s p a h k => ⟨ticks_ccrPre k s, ?_⟩
  split
  · next hk => exact h.ccrAct_in_frame hk
  · next hk => exact h.ccrAct_after_frame (Nat.le_of_not_lt hk)

/-! ### The output -/

theorem ocref_of_off {s : State} (h : s.ocMode = .off) : ocref s = false := by simp only [ocref, h]

/-- In PWM mode with both registers written the comparison is that of the registers' numbers (R170). -/
theorem ocref_of_pwm {s : State} {a c : Word} (hmode : s.ocMode = .pwm) (ha : s.arr = some a) (hc : s.ccrAct = some c) :
    ocref s = true ↔ s.cnt.toNat < c.toNat ∨ a.toNat ≤ c.toNat := by
  simp only [ocref, hmode, ha, hc]
  split
  · next hlt => exact ⟨fun _ => .inl hlt, fun _ => rfl⟩
  · next hge => exact ⟨fun hle => .inr (of_decide_eq_true hle), fun hor => decide_eq_true (hor.resolve_left hge)⟩

theorem tout_of_chen {s : State} (h : s.chen = true) : tout s = ocref s := if_pos h

/-- Settles O40: the comparator by its mode, the output by the channel's enable. -/
theorem outputIsGatedComparison : Obligations.OutputIsGatedComparison := fun _ _ _ =>
  ⟨ocref_of_off, ocref_of_pwm, tout_eq_false_of_chen_eq_false, tout_of_chen⟩

/-- Of the numbers below `n` those below `m` are `m`. -/
theorem length_filter_lt_range {m n : Nat} (h : m ≤ n) : ((List.range n).filter (· < m)).length = m := by
  rw [← List.Ico.zero_bot, List.Ico.filter_lt_of_ge h, List.Ico.length, Nat.sub_zero]

section
variable {s : State} {p : Half} {a c : Word} (h : s.AtFrameStart p a) (hmode : s.ocMode = .pwm) (hchen : s.chen = true)
  (hc : s.ccrAct = some c)
include h hmode hchen hc

theorem tout_in_frame {k : Nat} (hk : k < frameTicks p a) :
    tout (ticks k s) = true ↔ a.toNat ≤ c.toNat ∨ k / (p.toNat + 1) < c.toNat := by
  have hcnt : (ticks k s).cnt.toNat = k / (p.toNat + 1) := by
    obtain ⟨-, hcnt, -⟩ := counterFollowsPeriodLaw s p a h k
    rw [hcnt, Nat.mod_eq_of_lt ((Nat.div_lt_iff_lt_mul (Nat.succ_pos _)).mpr hk)]
  rw [tout_of_chen ((ticks_chen k s).trans hchen), ocref_of_pwm ((ticks_ocMode k s).trans hmode)
    ((ticks_arr k s).trans h.arr) ((h.ccrAct_in_frame hk).trans hc), hcnt, or_comm]

/-- The output is high during the first TICKs of the frame, as many as the duty asks for. -/
theorem tout_in_frame_iff_lt {k : Nat} (hk : k < frameTicks p a) :
    tout (ticks k s) = true ↔ k < (if a.toNat ≤ c.toNat then a.toNat + 1 else c.toNat) * (p.toNat + 1) := by
  rw [tout_in_frame h hmode hchen hc hk]
  split
  · next hsat => exact ⟨fun _ => hk, fun _ => .inl hsat⟩
  · next hsat => rw [or_iff_right hsat, Nat.div_lt_iff_lt_mul (Nat.succ_pos _)]

end

/-- Settles O39: `CNT` is `k / (PSC + 1)` in the frame, so the output is high during its first TICKs, whose number is
counted. -/
theorem pulseLengthIsDuty : Obligations.PulseLengthIsDuty := by
  intro s p a c h _ hmode hchen hc
  refine ⟨fun k hk => tout_in_frame h hmode hchen hc hk, ?_⟩
  have hle : (if a.toNat ≤ c.toNat then a.toNat + 1 else c.toNat) ≤ a.toNat + 1 := by
    split
    · exact Nat.le_refl _
    · omega
  rw [← frameTicks, List.filter_congr fun k hk => Bool.eq_iff_iff.mpr
    ((tout_in_frame_iff_lt h hmode hchen hc (List.mem_range.mp hk)).trans decide_eq_true_iff.symm)]
  exact length_filter_lt_range (Nat.mul_le_mul_right _ hle)

/-! ### The constant outputs -/

/-- Settles O41: whichever copy is in force, it is at or above `ARR`. -/
theorem saturatedDutyIsConstantHigh : Obligations.SaturatedDutyIsConstantHigh := by
  intro s a c d _ hmode hchen ha hc hd hac had k
  rw [tout_of_chen ((ticks_chen k s).trans hchen)]
  have hhigh {x : Word} (hx : (ticks k s).ccrAct = some x) (hax : a.toNat ≤ x.toNat) : ocref (ticks k s) = true :=
    (ocref_of_pwm ((ticks_ocMode k s).trans hmode) ((ticks_arr k s).trans ha) hx).mpr (.inr hax)
  obtain e | e := ticks_ccrAct_cases k s
  · exact hhigh (e.trans hc) hac
  · exact hhigh (e.trans hd) had

/-- With a duty of 0 in force the comparison fails at every counter value, because `ARR` is not 0 (R174, R132). -/
theorem ocref_of_ccrAct_eq_zero {s : State} (hinv : s.Inv) (hc : s.counting = true) (hact : s.ccrAct = some 0#32) :
    ocref s = false := by
  obtain ⟨p, a, h, hpos⟩ := hinv.exists_countsWithin hc
  cases hmode : s.ocMode with
  | off => exact ocref_of_off hmode
  | pwm =>
    rw [← Bool.not_eq_true, ocref_of_pwm hmode h.arr hact, BitVec.toNat_zero]
    omega

/-- Settles O42: TICKs keep the invariant, and the copy in force is 0 whichever it is. -/
theorem zeroDutyIsConstantLow : Obligations.ZeroDutyIsConstantLow := by
  refine fun s hinv hc hact => ⟨ocref_of_ccrAct_eq_zero hinv hc hact, fun hpre k => ?_⟩
  have hk : (ticks k s).ccrAct = some 0#32 := (ticks_ccrAct_cases k s).elim (·.trans hact) (·.trans hpre)
  have hlow := ocref_of_ccrAct_eq_zero (inv_ticks hinv k) ((ticks_counting k s).trans hc) hk
  refine ⟨hlow, ?_⟩
  cases hchen : (ticks k s).chen with
  | false => exact tout_eq_false_of_chen_eq_false hchen
  | true => rw [tout_of_chen hchen, hlow]

/-! ### Stop and start -/

/-- Settles O43: the write touches only the two enables, and with `CEN = 0` no TICK does anything. -/
theorem stopFreezesCounter : Obligations.StopFreezesCounter := by
  intro v s t hv hx k
  obtain ⟨-, -, -, -, rfl⟩ := execWrTimCtrl_next.mp hx
  rw [ticks_idle (State.counting_eq_false.mpr (.inr hv))]
  exact ⟨rfl, rfl, rfl, rfl, rfl⟩

/-- Settles O44: the write that starts the timer leaves it at the start of a frame, to which the period law applies. -/
theorem startBeginsFirstFrame : Obligations.StartBeginsFirstFrame := by
  intro v s t p a hcen hv hcnt hpcnt hp ha hx
  obtain ⟨hclk, -, hstart, -, rfl⟩ := execWrTimCtrl_next.mp hx
  have h : (s.setCtrl (v.getLsbD 0) (v.getLsbD 1)).AtFrameStart p a :=
    ⟨State.counting_eq_true.mpr ⟨hclk, hv⟩, hp, ha, hcnt, hpcnt⟩
  refine ⟨rfl, hcnt, hpcnt, fun k hk => ⟨h.updateDue_eq_false hk, h.ccrAct_in_frame (Nat.lt_of_succ_lt hk)⟩,
    h.updateDue_last, fun c hmode hchen hc hpos => ?_⟩
  refine (tout_of_chen hchen).trans ((ocref_of_pwm hmode h.arr hc).mpr (.inl ?_))
  rw [hcnt]
  exact hpos

end Sys2Proof.Machine
end

section
/-! PROOFS. Decode faults (60_exceptions.md R201 to R204): the decoder as the first of its four tests that fails, and the
offsets at which the last one finds a register. -/

namespace Sys2Proof

/-- The offsets at which a register is found: the seven fixed ones and those of the pin bank (10_state.md R24). -/
theorem exists_lookup_eq_some_iff {off : Offset} : (∃ r, lookup off = some r) ↔
    off.toNat ∈ [0x000, 0x010, 0x014, 0x018, 0x01C, 0x020, 0x024] ∨
      ∃ n, n < Config.npins ∧ off.toNat = 0x100 + 4 * n := by
  have hpin : ∀ n : Fin 16, (Reg.pincfg n).off.toNat = 0x100 + 4 * n := by decide
  constructor
  · rintro ⟨r, hr⟩
    obtain rfl := off_of_lookup_eq_some hr
    cases r with
    | pincfg n =>
      have hn : n < 16 := of_decide_eq_true (wellFormed_of_lookup_eq_some (i := .rdPincfg n) hr)
      exact .inr ⟨n, hn, hpin ⟨n, hn⟩⟩
    | _ => exact .inl (by decide)
  · rintro (hfixed | ⟨n, hn, hoff⟩)
    · have hall : ∀ k ∈ [0x000, 0x010, 0x014, 0x018, 0x01C, 0x020, 0x024],
          (lookup (BitVec.ofNat 12 k)).isSome := by decide
      simpa [Option.isSome_iff_exists] using hall _ hfixed
    · obtain rfl : off = (Reg.pincfg n).off := BitVec.eq_of_toNat_eq (hoff.trans (hpin ⟨n, hn⟩).symm)
      exact ⟨_, (lookup_off_pincfg n).trans (if_pos hn)⟩

/-- The decoder's answer, by the first of the four tests of R76 that fails. -/
theorem decode_cases (w : TxnWord) :
    let f1 := txnRsv w = true ∨ (txnRw w = false ∧ txnData w ≠ 0#32)
    let f2 := txnSize w ≠ 0b10#2
    let f3 := (txnOff w).extractLsb' 0 2 ≠ 0#2
    let mapped := ∃ r, lookup (txnOff w) = some r
    (f1 ∧ decode w = .error .encoding) ∨ (¬ f1 ∧ f2 ∧ decode w = .error .width) ∨
      (¬ f1 ∧ ¬ f2 ∧ f3 ∧ decode w = .error .align) ∨ (¬ f1 ∧ ¬ f2 ∧ ¬ f3 ∧ ¬ mapped ∧ decode w = .error .unmapped) ∨
      (¬ f1 ∧ ¬ f2 ∧ ¬ f3 ∧ mapped ∧ ∃ i, decode w = .ok i) := by
  intro f1 f2 f3 mapped
  by_cases h1 : f1
  · exact .inl ⟨h1, if_pos h1⟩
  by_cases h2 : f2
  · exact .inr (.inl ⟨h1, h2, (if_neg h1).trans (if_pos h2)⟩)
  by_cases h3 : f3
  · exact .inr (.inr (.inl ⟨h1, h2, h3, (if_neg h1).trans ((if_neg h2).trans (if_pos h3))⟩))
  by_cases h4 : mapped
  · obtain ⟨r, hr⟩ := h4
    obtain ⟨hrsv, hdata⟩ := not_encoding_fault_iff.mp h1
    have hok := decode_eq_ok hrsv hdata (not_not.mp h2) (not_not.mp h3) hr
    exact .inr (.inr (.inr (.inr ⟨h1, h2, h3, ⟨r, hr⟩, _, hok⟩)))
  · have hnone : lookup (txnOff w) = none := Option.eq_none_iff_forall_ne_some.mpr fun r hr => h4 ⟨r, hr⟩
    have hunmapped := decode_eq_unmapped h1 (not_not.mp h2) (not_not.mp h3) hnone
    exact .inr (.inr (.inr (.inl ⟨h1, h2, h3, h4, hunmapped⟩)))

/-- Settles O3: the cases of the decoder exclude each other, each with an answer of its own. -/
theorem decodeRejectsExactlyIllegalWords : Obligations.DecodeRejectsExactlyIllegalWords := by
  intro w f1 f2 f3 mapped
  have hcases := decode_cases w
  rw [extractLsb'_txnOff w (by decide), exists_lookup_eq_some_iff] at hcases
  change (f1 ∧ _) ∨ (¬ f1 ∧ f2 ∧ _) ∨ (¬ f1 ∧ ¬ f2 ∧ f3 ∧ _) ∨ (¬ f1 ∧ ¬ f2 ∧ ¬ f3 ∧ ¬ mapped ∧ _) ∨
    (¬ f1 ∧ ¬ f2 ∧ ¬ f3 ∧ mapped ∧ _) at hcases
  obtain ⟨h1, e⟩ | ⟨h1, h2, e⟩ | ⟨h1, h2, h3, e⟩ | ⟨h1, h2, h3, h4, e⟩ | ⟨h1, h2, h3, h4, i, e⟩ := hcases
  · simp [e, h1]
  · simp [e, h1, h2]
  · simp [e, h1, h2, h3]
  · simp [e, h1, h2, h3, h4]
  · simp [e, h1, h2, h3, h4]

end Sys2Proof
end

section
/-! PROOFS. The lowest applicable fault (60_exceptions.md R204 to R212): the faults that can apply to each transaction, as a
list of codes and conditions with the lowest code first; the rules' own conditions (`FaultApplies`) are those of the list, and
the checks of each meaning run through the list in its order. -/

namespace Sys2Proof

/-- A field has a given value exactly when the bits under its mask are that value's in place. -/
theorem and_fieldMask_eq_iff {w lo len : Nat} (h : lo + len ≤ w) (x : BitVec w) (p : BitVec len) :
    x &&& (BitVec.allOnes len).setWidth w <<< lo = p.setWidth w <<< lo ↔ x.extractLsb' lo len = p := by
  have hfield (q : BitVec len) : (q.setWidth w <<< lo).extractLsb' lo len = q := by
    ext i hi
    simp [show lo + i < w by omega, BitVec.getLsbD_eq_getElem hi]
  constructor
  · intro e
    rw [extractLsb'_of_and_eq (hfield _) e, hfield]
  · rintro rfl
    ext i hi
    by_cases hlo : i < lo
    · simp [hlo]
    · simp [hlo, Nat.add_sub_cancel' (Nat.le_of_not_lt hlo), BitVec.getLsbD_eq_getElem hi, Bool.and_comm]

namespace Machine

/-! ### Reserved bits and encodings -/

@[simp] theorem reservedWrite_gate_iff {v : Word} : ReservedWrite .gate v ↔ twoFlagsOfData v = none := by
  rw [twoFlagsOfData_eq_none]
  exact not_congr (and_fieldMask_eq_iff (lo := 2) (by decide) v 0#30)

@[simp] theorem reservedWrite_timCtrl_iff {v : Word} : ReservedWrite .timCtrl v ↔ twoFlagsOfData v = none :=
  reservedWrite_gate_iff

@[simp] theorem reservedWrite_timChcfg_iff {v : Word} : ReservedWrite .timChcfg v ↔ chcfgOfData v = none := by
  have hmode := and_fieldMask_eq_iff (lo := 0) (by decide) v (len := 2)
  rw [chcfgOfData_eq_none]
  exact or_congr (not_congr (and_fieldMask_eq_iff (lo := 3) (by decide) v 0#29))
    (or_congr (hmode 0b10#2) (hmode 0b11#2))

@[simp] theorem reservedWrite_timPsc_iff {v : Word} : ReservedWrite .timPsc v ↔ pscOfData v = none := by
  rw [pscOfData_eq_none]
  exact not_congr (and_fieldMask_eq_iff (lo := 16) (by decide) v 0#16)

@[simp] theorem reservedWrite_timArr_iff {v : Word} : ReservedWrite .timArr v ↔ False := Iff.rfl

@[simp] theorem reservedWrite_timCcr_iff {v : Word} : ReservedWrite .timCcr v ↔ False := Iff.rfl

@[simp] theorem reservedWrite_timCnt_iff {v : Word} : ReservedWrite .timCnt v ↔ False := Iff.rfl

/-- Bit 7 and bits 31:12 are the reserved bits of a pin's configuration, under one mask. -/
@[simp] theorem reservedWrite_pincfg_iff {n : Nat} {v : Word} : ReservedWrite (.pincfg n) v ↔ pinOfData v = none := by
  have hmode := and_fieldMask_eq_iff (lo := 0) (by decide) v (len := 2)
  have hhigh := and_fieldMask_eq_iff (lo := 12) (by decide) v 0#20
  have h7 : v &&& 0x80#32 = 0#32 ↔ v.getLsbD 7 = false := by
    have hclear : ∀ b, BitVec.ofBool b = 0#1 ↔ b = false := by decide
    rw [← hclear, ofBool_getLsbD]
    exact and_fieldMask_eq_iff (lo := 7) (by decide) v 0#1
  have hbits : v &&& 0xFFFFF080#32 ≠ 0#32 ↔ v.extractLsb' 12 20 ≠ 0#20 ∨ v.getLsbD 7 = true := by
    rw [show 0xFFFFF080#32 = 0xFFFFF000#32 ||| 0x80#32 by decide, BitVec.and_or_distrib_left, Ne, BitVec.or_eq_zero_iff,
      not_and_or, h7, Bool.not_eq_false]
    exact or_congr_left (not_congr hhigh)
  rw [pinOfData_eq_none, ← or_assoc, ← hbits]
  exact or_congr_right (or_congr (hmode 0b01#2) (or_congr (hmode 0b11#2)
    (and_fieldMask_eq_iff (lo := 3) (by decide) v 0b11#2)))

/-! ### The faults of each transaction -/

/-- The faults that can apply to each transaction, each code with its condition, the lowest first. -/
def faultConditions (s : State) : Instr → List (Nat × Prop)
  | .wrGate v =>
    [(7, twoFlagsOfData v = none),
     (9, (s.timClkEn = true ∧ v.getLsbD 0 = false) ∨ (s.gpioClkEn = true ∧ v.getLsbD 1 = false))]
  | .rdGate => []
  | .wrTimCtrl v =>
    [(5, s.timClkEn = false), (7, twoFlagsOfData v = none), (10, s.Early (v.getLsbD 0) (v.getLsbD 1)),
     (11, s.starting (v.getLsbD 0) = true ∧ s.degenerate = true)]
  | .wrTimChcfg v => [(5, s.timClkEn = false), (7, chcfgOfData v = none), (8, s.cen = true)]
  | .wrTimPsc v => [(5, s.timClkEn = false), (7, pscOfData v = none), (8, s.cen = true)]
  | .wrTimArr _ => [(5, s.timClkEn = false), (8, s.cen = true)]
  | .wrTimCcr _ => [(5, s.timClkEn = false)]
  | .wrTimCnt _ => [(5, s.timClkEn = false), (6, True)]
  | .rdTimPsc => [(5, s.timClkEn = false), (10, s.psc = none)]
  | .rdTimArr => [(5, s.timClkEn = false), (10, s.arr = none)]
  | .rdTimCcr => [(5, s.timClkEn = false), (10, s.ccrPre = none)]
  | .rdTimCtrl | .rdTimChcfg | .rdTimCnt => [(5, s.timClkEn = false)]
  | .wrPincfg n v => [(4, Config.npins ≤ n), (5, s.gpioClkEn = false), (7, pinOfData v = none)]
  | .rdPincfg n => [(4, Config.npins ≤ n), (5, s.gpioClkEn = false)]

theorem unwrittenApplies_wrTimCtrl_iff {v : Word} {s : State} :
    UnwrittenApplies (.wrTimCtrl v) s ↔ s.Early (v.getLsbD 0) (v.getLsbD 1) := by
  simp [UnwrittenApplies, State.early_iff, and_assoc]

theorem badStartApplies_wrTimCtrl_iff {v : Word} {s : State} :
    BadStartApplies (.wrTimCtrl v) s ↔ s.starting (v.getLsbD 0) = true ∧ s.degenerate = true := by
  simp [BadStartApplies, State.starting_eq_true, State.degenerate_eq_true, and_assoc]

/-- The faults that apply are those whose condition in the list holds: the rules R204 to R211, each read at one
transaction. -/
theorem faultApplies_iff {c : Nat} {i : Instr} {s : State} :
    FaultApplies c i s ↔ ∃ e ∈ faultConditions s i, e.1 = c ∧ e.2 := by
  unfold FaultApplies UnmappedApplies GatedApplies ReadonlyApplies ReservedApplies LockedApplies GateClearApplies
  cases i with
  | wrTimCtrl v =>
    simp [faultConditions, eq_comm (b := c), Instr.reg, Reg.isTimer, Instr.writeData, unwrittenApplies_wrTimCtrl_iff,
      badStartApplies_wrTimCtrl_iff]
  | _ =>
    simp [faultConditions, eq_comm (b := c), Instr.reg, Reg.isTimer, Instr.writeData, UnwrittenApplies, BadStartApplies]

theorem faultConditions_sorted (s : State) (i : Instr) : (faultConditions s i).Pairwise fun a b => a.1 < b.1 := by
  cases i <;> simp [faultConditions]

/-! ### Reporting the first fault that applies -/

/-- The outcome is the fault of the first entry whose condition holds, with the word `w`, or a next state when none
does. -/
def ReportsFirst (w : TxnWord) : List (Nat × Prop) → Result → Prop
  | [], o => ∃ t, o = .next t
  | e :: l, o => (e.2 ∧ ∃ f, o = .fault f ∧ f.word = w ∧ f.code = e.1) ∨ (¬ e.2 ∧ ReportsFirst w l o)

section
variable {w : TxnWord} {l : List (Nat × Prop)} {f : Fault} {k : Result}

theorem reportsFirst_next (w : TxnWord) (t : State) : ReportsFirst w [] (.next t) := ⟨t, rfl⟩

theorem reportsFirst_fault (f : Fault) (l : List (Nat × Prop)) : ReportsFirst f.word ((f.code, True) :: l) (.fault f) :=
  .inl ⟨trivial, f, rfl, rfl, rfl⟩

/-- A check is an entry whose condition is that it fails. -/
theorem reportsFirst_require {c : Prop} [Decidable c] {P : Prop} (hP : ¬ c ↔ P) (hk : ReportsFirst f.word l k) :
    ReportsFirst f.word ((f.code, P) :: l) (require c f k) := by
  by_cases h : c
  · exact .inr ⟨fun p => hP.mpr p h, by rwa [require_pos h]⟩
  · exact .inl ⟨hP.mp h, f, require_neg h f k, rfl, rfl⟩

/-- Two checks that raise the same fault count as one. -/
theorem reportsFirst_require_require {c d : Prop} [Decidable c] [Decidable d] {P : Prop} (hP : ¬ c ∨ ¬ d ↔ P)
    (hk : ReportsFirst f.word l k) : ReportsFirst f.word ((f.code, P) :: l) (require c f (require d f k)) := by
  by_cases h : c
  · rw [require_pos h]
    exact reportsFirst_require (by rw [← hP, or_iff_right (not_not.mpr h)]) hk
  · exact .inl ⟨hP.mp (.inl h), f, require_neg h f _, rfl, rfl⟩

/-- A demand is an entry whose condition is that the value is absent. -/
theorem reportsFirst_demand {α : Type} {o : Option α} {k : α → Result}
    (hk : ∀ a, o = some a → ReportsFirst f.word l (k a)) :
    ReportsFirst f.word ((f.code, o = none) :: l) (demand o f k) := by
  cases o with
  | none => exact .inl ⟨rfl, f, rfl, rfl, rfl⟩
  | some a => exact .inr ⟨Option.some_ne_none a, hk a rfl⟩

/-- The first entry that holds is the one with the lowest code, in a list sorted by code. -/
theorem ReportsFirst.lowest {o : Result} (h : ReportsFirst w l o) (hl : l.Pairwise fun a b => a.1 < b.1) :
    (∃ t, o = .next t ∧ ∀ e ∈ l, ¬ e.2) ∨
    (∃ f, o = .fault f ∧ f.word = w ∧ (∃ e ∈ l, e.1 = f.code ∧ e.2) ∧ ∀ e ∈ l, e.1 < f.code → ¬ e.2) := by
  induction l with
  | nil =>
    obtain ⟨t, ht⟩ := h
    exact .inl ⟨t, ht, by simp⟩
  | cons e l ih =>
    obtain ⟨hlt, hl'⟩ := List.pairwise_cons.mp hl
    obtain ⟨he, f, hf, hw, hc⟩ | ⟨he, h'⟩ := h
    · refine .inr ⟨f, hf, hw, ⟨e, by simp, hc.symm, he⟩, fun d hd hdc => ?_⟩
      obtain rfl | hd := List.mem_cons.mp hd
      · exact absurd (hc ▸ hdc) (lt_irrefl _)
      · exact absurd (hc ▸ hdc) (hlt d hd).not_gt
    · obtain ⟨t, ht, hno⟩ | ⟨f, hf, hw, ⟨d, hd, hholds⟩, hlow⟩ := ih h' hl'
      · exact .inl ⟨t, ht, List.forall_mem_cons.mpr ⟨he, hno⟩⟩
      · exact .inr ⟨f, hf, hw, ⟨d, List.mem_cons_of_mem _ hd, hholds⟩,
          List.forall_mem_cons.mpr ⟨fun _ => he, hlow⟩⟩

end

section
variable {i : Instr} {s : State} {l : List (Nat × Prop)} {k : Result}

/-- The gate check of a timer transaction is an F5 entry. -/
theorem reportsFirst_timer (hk : ReportsFirst (encode i) l k) :
    ReportsFirst (encode i) ((5, s.timClkEn = false) :: l) (requireTimerClock i s k) :=
  reportsFirst_require (f := .gated (encode i)) (Bool.not_eq_true _).to_iff hk

/-- The checks that begin a pin transaction are an F4 and an F5 entry. -/
theorem reportsFirst_pin {n : Nat} (hk : ReportsFirst (encode i) l k) :
    ReportsFirst (encode i) ((4, Config.npins ≤ n) :: (5, s.gpioClkEn = false) :: l) (requirePin i n s k) :=
  reportsFirst_require (f := .unmapped (encode i)) Nat.not_lt <|
    reportsFirst_require (f := .gated (encode i)) (Bool.not_eq_true _).to_iff hk

/-- The lock check is an F8 entry. -/
theorem reportsFirst_lock {w : TxnWord} (hk : ReportsFirst w l k) :
    ReportsFirst w ((8, s.cen = true) :: l) (require (s.cen = false) (.locked w) k) :=
  reportsFirst_require (f := .locked w) (Bool.not_eq_false _).to_iff hk

end

/-- The checks of every meaning are the entries of its list, in the list's order (60_exceptions.md R212). -/
theorem exec_reportsFirst (i : Instr) (s : State) : ReportsFirst (encode i) (faultConditions s i) (exec i s) := by
  cases i with
  | wrGate v =>
    refine reportsFirst_demand (f := .reserved _) fun g hg => ?_
    obtain ⟨-, rfl⟩ := twoFlagsOfData_eq_some.mp hg
    exact reportsFirst_require (f := .gateClear _) not_not (reportsFirst_next _ _)
  | rdGate => exact reportsFirst_next _ _
  | wrTimCtrl v =>
    refine reportsFirst_timer <| reportsFirst_demand (f := .reserved _) fun g hg => ?_
    obtain ⟨-, rfl⟩ := twoFlagsOfData_eq_some.mp hg
    exact reportsFirst_require_require (f := .unwritten _) (or_congr not_not not_not) <|
      reportsFirst_require (f := .badStart _) not_not <| reportsFirst_next _ _
  | wrTimChcfg | wrTimPsc =>
    exact reportsFirst_timer <| reportsFirst_demand (f := .reserved _) fun _ _ =>
      reportsFirst_lock <| reportsFirst_next _ _
  | wrTimArr => exact reportsFirst_timer <| reportsFirst_lock <| reportsFirst_next _ _
  | wrTimCnt => exact reportsFirst_timer <| reportsFirst_fault (.readonly _) []
  | rdTimPsc | rdTimArr | rdTimCcr =>
    exact reportsFirst_timer <| reportsFirst_demand (f := .unwritten _) fun _ _ => reportsFirst_next _ _
  | wrTimCcr | rdTimCtrl | rdTimChcfg | rdTimCnt => exact reportsFirst_timer <| reportsFirst_next _ _
  | wrPincfg => exact reportsFirst_pin <| reportsFirst_demand (f := .reserved _) fun _ _ => reportsFirst_next _ _
  | rdPincfg => exact reportsFirst_pin <| reportsFirst_next _ _

/-- Settles O51: the meaning reports the first entry that holds, which in the sorted list is that of the lowest code that
applies. -/
theorem lowestApplicableFaultIsReported : Obligations.LowestApplicableFaultIsReported := by
  intro i s
  simp only [faultApplies_iff]
  obtain ⟨t, ht, hno⟩ | ⟨f, hf, hw, happ, hlow⟩ := (exec_reportsFirst i s).lowest (faultConditions_sorted s i)
  · exact .inl ⟨t, ht, fun c ⟨e, he, _, h⟩ => hno e he h⟩
  · exact .inr ⟨f, hf, hw, happ, fun c hc ⟨e, he, hec, h⟩ => hlow e he (hec ▸ hc) h⟩

end Machine
end Sys2Proof
end

section
/-! PROOFS. Faulting steps (60_exceptions.md R213 to R215): the word a fault holds is the one issued, whether the decoder or
the transaction raised it; and the record, once set, stops every step and stays. -/

namespace Sys2Proof.Machine

/-! ### What a faulting step records -/

/-- A transaction's fault holds the transaction's word. -/
theorem word_of_exec_eq_fault {i : Instr} {s : State} {f : Fault} (h : exec i s = .fault f) : f.word = encode i := by
  obtain ⟨t, ht, -⟩ | ⟨g, hg, hw, -⟩ := lowestApplicableFaultIsReported i s
  · cases ht.symm.trans h
  · cases hg.symm.trans h
    exact hw

@[simp] theorem rejectFault_word (r : Reject) (w : TxnWord) : (rejectFault r w).word = w := by cases r <;> rfl

/-- The step of a word that does not decode (30_encoding.md R76). -/
theorem step_rejected {s : State} {w : TxnWord} {rest : List Input} {r : Reject} (hf : s.faultRecord = none)
    (hi : s.inputs = .txn w :: rest) (hd : decode w = .error r) : step s = .fault (rejectFault r w) := by
  simp only [step, hf, hi, hd]

/-- Settles O52: the four reasons to reject a word have the four faults of their names. -/
theorem rejectedWordStopsStep : Obligations.RejectedWordStopsStep := fun _ _ _ hf hi =>
  ⟨step_rejected hf hi, step_rejected hf hi, step_rejected hf hi, step_rejected hf hi⟩

/-- Settles O49: the fault is the decoder's, which holds the word, or the transaction's, which holds its encoding, and a
word that decodes is the encoding of its transaction. -/
theorem faultRecordsWordAndChangesNothing : Obligations.FaultRecordsWordAndChangesNothing := by
  intro s w rest f hf hi h
  refine ⟨?_, by rw [afterStep, h, landing_fault, State.setFault]⟩
  cases hd : decode w with
  | error r =>
    obtain rfl := Host.Outcome.fault.inj ((step_rejected hf hi hd).symm.trans h)
    exact rejectFault_word r w
  | ok i => rw [word_of_exec_eq_fault ((step_txn hf hi hd).symm.trans h), encode_of_decode_eq_ok hd]

/-! ### The run is over -/

theorem step_of_faultRecord {s : State} {f : Fault} (hf : s.faultRecord = some f) : step s = .fault f := by
  simp only [step, hf]

/-- To record the fault that is recorded changes nothing (60_exceptions.md R215). -/
theorem setFault_of_faultRecord {s : State} {f : Fault} (hf : s.faultRecord = some f) : s.setFault f = s := by
  rw [State.setFault, ← hf]

theorem exec_faultRecord {i : Instr} {s t : State} (h : exec i s = .next t) : t.faultRecord = s.faultRecord := by
  obtain ⟨-, -, -, -, -, -, -, -, -, -, hrecord, -⟩ := transactionsTouchOnlyTheirRegister i s t h
  exact hrecord

/-- Settles O50: a recorded fault is the answer of every step; and no TICK, reset or completing transaction touches the
record, which was none when the step began. -/
theorem faultedRunIsOver : Obligations.FaultedRunIsOver := by
  refine ⟨fun s f hf => ?_, fun s t h => ?_⟩
  · have hstep := step_of_faultRecord hf
    refine ⟨hstep, ?_, fun t ht => ?_⟩
    · rw [afterStep, hstep, landing_fault, setFault_of_faultRecord hf]
    · cases hstep.symm.trans ht
  · obtain ⟨hf, ⟨rest, -, rfl⟩ | ⟨rest, -, rfl⟩ | ⟨w, rest, i, -, -, hx⟩⟩ := step_next_cases h
    · exact ⟨hf, (tick_faultRecord _).trans hf⟩
    · exact ⟨hf, hf⟩
    · exact ⟨hf, (exec_faultRecord hx).trans hf⟩

end Sys2Proof.Machine
end

section
/-! PROOFS. Hazards (70_reset_and_hazards.md R245, R246, R252): a duty write while the timer counts is in force from the next
update event, which is at most a frame away; until then a later write replaces it without a trace; and a wait is a lower bound
on the TICKs between two transactions, met by any number of TICKs from there up. -/

namespace Sys2Proof.Machine

/-! ### A duty write while counting -/

@[simp] theorem ticks_fastEn (k : Nat) (s : State) : (ticks k s).fastEn = s.fastEn := by
  obtain ⟨p, c, d, e⟩ := ticks_frame k s
  rw [e]

/-- While the timer counts with `FASTEN = 0` a duty write reaches the preload copy only (42_timer_registers.md R140). -/
theorem execWrTimCcr_next_of_counting {v : Word} {s t : State} (hc : s.counting = true) (hfast : s.fastEn = false) :
    exec (.wrTimCcr v) s = .next t ↔ t = s.setCcrPre v := by
  obtain ⟨hclk, hcen⟩ := State.counting_eq_true.mp hc
  have hload : ¬ s.loadsAtOnce = true := by simp [State.loadsAtOnce_eq_true, hcen, hfast]
  rw [execWrTimCcr_next, if_neg hload, and_iff_right hclk]

theorem tick_ccrAct_of_updateDue {s : State} (hc : s.counting = true) (hu : s.updateDue = true) :
    (tick s).ccrAct = s.ccrPre :=
  congrArg State.ccrAct (tick_of_updateDue hc hu)

namespace State.CountsWithin
variable {s : State} {p : Half} {a : Word} (h : s.CountsWithin p a)
include h

/-- Up to the end of the frame it is in, the compare value in force is held (43_counter_compare.md R164). -/
theorem ccrAct_in_frame {k : Nat} (hk : s.framePos p + k < frameTicks p a) : (ticks k s).ccrAct = s.ccrAct :=
  ticks_ccrAct_of_not_updateDue fun j hj => by
    rw [← Bool.not_eq_true, h.updateDue_ticks_iff, Nat.mod_eq_of_lt (by omega)]
    exact Nat.succ_ne_zero _

/-- The last TICK of the frame loads the preloaded value (R164). -/
theorem ccrAct_at_frame_end {k : Nat} (hk : s.framePos p + k + 1 = frameTicks p a) :
    (ticks (k + 1) s).ccrAct = s.ccrPre := by
  have hdue : (ticks k s).updateDue = true := by rw [h.updateDue_ticks_iff, hk, Nat.mod_self]
  rw [ticks_succ, tick_ccrAct_of_updateDue ((ticks_counting k s).trans h.counting) hdue, ticks_ccrPre]

end State.CountsWithin

/-- Settles O45: the write is loaded by the last TICK of the frame it falls in. -/
theorem dutyWriteLandsWithinOneFrame : Obligations.DutyWriteLandsWithinOneFrame := by
  intro v a p s t hinv hc hfast ha hp hx
  obtain rfl := (execWrTimCcr_next_of_counting hc hfast).mp hx
  obtain ⟨p', a', h, -⟩ := hinv.exists_countsWithin hc
  obtain rfl := Option.some.inj (hp.symm.trans h.psc)
  obtain rfl := Option.some.inj (ha.symm.trans h.arr)
  have ht : (s.setCcrPre v).CountsWithin p a := ⟨h.counting, h.psc, h.arr, h.cnt_le, h.pcnt_le⟩
  obtain ⟨n, hn⟩ := Nat.exists_eq_add_of_lt ht.framePos_lt
  have hle : n + 1 ≤ frameTicks p a := by omega
  exact ⟨n + 1, Nat.succ_pos n, hle, ht.ccrAct_at_frame_end hn.symm, fun k hk => ht.ccrAct_in_frame (by omega)⟩

/-! ### Of two duty writes in a frame -/

/-- A TICK that is no update event does not see the preload copy. -/
theorem tick_setCcrPre {s : State} (v : Word) (hu : s.updateDue = false) :
    tick (s.setCcrPre v) = (tick s).setCcrPre v := by
  cases hc : s.counting with
  | false => rw [tick_idle hc, tick_idle (s := s.setCcrPre v) hc]
  | true =>
    have hc' : (s.setCcrPre v).counting = true := hc
    obtain ⟨hp, e⟩ | ⟨hp, ha, e⟩ | ⟨hp, ha, -⟩ := tick_cases hc
    · rw [e, tick_of_psc_ne hc' hp]
      rfl
    · rw [e, tick_of_arr_ne hc' hp ha]
      rfl
    · exact absurd (State.updateDue_eq_true.mpr ⟨hp, ha⟩) (ne_true_of_eq_false hu)

theorem ticks_setCcrPre {k : Nat} {s : State} (v : Word) (hu : ∀ j, j < k → (ticks j s).updateDue = false) :
    ticks k (s.setCcrPre v) = (ticks k s).setCcrPre v := by
  induction k with
  | zero => rfl
  | succ k ih =>
    rw [ticks_succ, ih fun j hj => hu j (Nat.lt_succ_of_lt hj), tick_setCcrPre v (hu k (Nat.lt_succ_self k)), ticks_succ]

/-- Settles O46: the TICKs carry the first write in the preload copy alone, where the second overwrites it. -/
theorem lastDutyWriteInFrameWins : Obligations.LastDutyWriteInFrameWins := by
  intro v₁ v₂ k s s₁ s₂ hc hfast hu hx₁ hx₂
  have hck : (ticks k s).counting = true := (ticks_counting k s).trans hc
  have hfastk : (ticks k s).fastEn = false := (ticks_fastEn k s).trans hfast
  obtain rfl := (execWrTimCcr_next_of_counting hc hfast).mp hx₁
  rw [ticks_setCcrPre v₁ hu] at hx₂
  obtain rfl : s₂ = (ticks k s).setCcrPre v₂ :=
    (execWrTimCcr_next_of_counting (s := (ticks k s).setCcrPre v₁) hck hfastk).mp hx₂
  exact ⟨(execWrTimCcr_next_of_counting hck hfastk).mpr rfl, ticks_ccrAct_of_not_updateDue hu,
    tick_ccrAct_of_updateDue hck⟩

/-! ### Waits -/

/-- A transaction's step takes its word off the inputs and nothing more. -/
theorem inputs_of_step_txn {s t : State} {w : TxnWord} {rest : List Input} (hi : s.inputs = .txn w :: rest)
    (h : step s = .next t) : t.inputs = rest := by
  obtain ⟨-, ⟨r, ⟨e, -⟩ | e, -⟩ | ⟨r, e, -⟩ | ⟨w', r, i, e, -, hx⟩⟩ := step_next_cases h
  · cases hi.symm.trans e
  · cases hi.symm.trans e
  · cases hi.symm.trans e
  · cases hi.symm.trans e
    obtain ⟨-, -, -, -, -, -, -, -, -, -, -, hin, -⟩ := transactionsTouchOnlyTheirRegister i _ t hx
    exact hin

/-- A run whose first input is a transaction that completes goes on with the rest of the lines after it. -/
theorem Runs.of_step {e : Env} {l : Line} {ls : List Line} {s t : State} {rest : List Input} {o : Result} {i : Instr}
    (h : Runs e 0 (l :: ls) s o) (hl : l.instr e = some i) (hi : s.inputs = .txn (encode i) :: rest)
    (hs : step s = .next t) : Runs (l.bind t e) 0 ls t o := by
  cases h with
  | clock _ hi' => cases hi.symm.trans hi'
  | wait => cases hl
  | op _ _ hs' h =>
    obtain rfl := Host.Outcome.next.inj (hs.symm.trans hs')
    exact h
  | fault _ _ hs' => cases hs.symm.trans hs'

/-- Before a line any number of TICKs may pass, and each counts towards what is owed. -/
theorem Runs.of_ticks {e : Env} {ls : List Line} (hls : ls ≠ []) {b owed : Nat} {s : State} {rest : List Input} {o : Result}
    (hf : s.faultRecord = none) (hi : s.inputs = List.replicate b .tick ++ rest)
    (h : Runs e (owed - b) ls ((ticks b s).at rest (s.steps + b)) o) : Runs e owed ls s o := by
  induction b generalizing s owed with
  | zero =>
    obtain rfl : s.inputs = rest := hi
    exact h
  | succ b ih =>
    have hi' : s.inputs = .tick :: (List.replicate b .tick ++ rest) := hi
    have hgo : (ticks b ((tick s).at (List.replicate b .tick ++ rest) (s.steps + 1))).at rest (s.steps + 1 + b) =
        (ticks (b + 1) s).at rest (s.steps + (b + 1)) := by
      rw [ticks_at, State.at_at, Nat.add_assoc, Nat.add_comm b 1, ticks_add]
      rfl
    rw [← hgo, Nat.add_comm b 1, ← Nat.sub_sub] at h
    exact .clock (.inr hls) hi' (step_tick hf hi') (ih ((tick_faultRecord s).trans hf) rfl h)

/-- Settles O60: the first line's step leaves the inputs that the wait and the second line then take; and the TICKs of a
longer wait than asked for stand before the line. -/
theorem waitIsLowerBoundOnTicks : Obligations.WaitIsLowerBoundOnTicks := by
  refine ⟨fun e l₁ l₂ i₁ i₂ k ls s t more o _ hl₁ hi hs hl₂ h => ?_,
    fun e k b l i s t rest hkb hf hl hi hs => .wait (.of_ticks (List.cons_ne_nil _ _) hf hi ?_)⟩
  · obtain ⟨-, hnone⟩ := faultedRunIsOver
    obtain ⟨-, hft⟩ := hnone s t hs
    obtain ⟨b, rest, hb, hin⟩ := (h.of_step hl₁ hi hs).of_wait hft hl₂
    exact ⟨b, rest, hb, (inputs_of_step_txn hi hs).symm.trans hin⟩
  · have howed : ((Expr.num k).value e).toNat - b = 0 := Nat.sub_eq_zero_of_le hkb
    rw [howed]
    exact .op hl rfl hs .done

end Sys2Proof.Machine
end

section
/-! PROOFS. Sample words (95_test_vectors.md §2.1, §2.2): the transactions among them are the encodings of their instructions,
and the others fail a test of R76. -/

namespace Sys2Proof

/-- A word written out is a transaction when it is the encoding of a well-formed instruction. -/
theorem decode_eq_ok_of_encode_eq {i : Instr} {w : TxnWord} (hi : i.WellFormed) (hw : encode i = w) : decode w = .ok i :=
  hw ▸ decode_encode hi

/-- Settles O5: eight of the words are the encodings of their instructions; for each of the other
four the first test of R76 that fails is another: `RSV` is set, `SIZE` is not a word, the offset is 2 modulo 4, or it is the
one after the last pin's. -/
theorem sampleWordsDecodeAsWritten : Obligations.SampleWordsDecodeAsWritten := by
  obtain ⟨hencoding, -⟩ := decodeRejectsExactlyIllegalWords 0xB01800000053#48
  obtain ⟨-, hwidth, -⟩ := decodeRejectsExactlyIllegalWords 0x301900000053#48
  obtain ⟨-, -, halign, -⟩ := decodeRejectsExactlyIllegalWords 0x401E00000000#48
  obtain ⟨-, -, -, hunmapped⟩ := decodeRejectsExactlyIllegalWords 0x514000000000#48
  exact ⟨decode_eq_ok_of_encode_eq rfl (by decide), decode_eq_ok_of_encode_eq rfl (by decide),
    decode_eq_ok_of_encode_eq rfl (by decide), decode_eq_ok_of_encode_eq rfl (by decide),
    decode_eq_ok_of_encode_eq rfl (by decide), decode_eq_ok_of_encode_eq rfl (by decide),
    decode_eq_ok_of_encode_eq rfl (by decide), decode_eq_ok_of_encode_eq rfl (by decide),
    hencoding.mpr (by decide), hwidth.mpr (by decide), halign.mpr (by decide), hunmapped.mpr (by decide)⟩

end Sys2Proof
end
